-- ==== Sys2Proof/Word.lean ====
section
/-! DEFINITION. The word types of the model: bytes, 64-bit words, and the register-number fields of an instruction. -/

namespace Sys2Proof

/-- A byte of memory (00_scope.md R8). -/
abbrev Byte := BitVec 8

/-- The carrier of every XLEN-bit and FLEN-bit value: 64 bits, with an XLEN = 32 value zero-extended
(log 2). -/
abbrev Word := BitVec 64

/-- A 5-bit register field: the number of an `x` or `f` register (10_state.md R20, R28). -/
abbrev RegIdx := BitVec 5

/-- A 3-bit register field of a compressed instruction (30_encoding.md R116; the Zcmp moves use the mapping of
49_zc_code_size.md R554). -/
abbrev CRegIdx := BitVec 3

/-- A 12-bit CSR address (10_state.md R32). -/
abbrev CsrAddr := BitVec 12

end Sys2Proof
end

