-- ==== Sys2Proof/Config.lean ====
section
/-! DEFINITION. What an implementation fixes: the parameters of 00_scope.md R5 to R7 as plain data, and the one source of
free values. -/

namespace Sys2Proof

/-- The width of an integer register and of pc (00_scope.md R5). -/
inductive Xlen where
  | rv32
  | rv64
  deriving DecidableEq, Repr

/-- XLEN as a number of bits. -/
def Xlen.bits : Xlen → Nat
  | .rv32 => 32
  | .rv64 => 64

/-- XLEN/8, the width in bytes of a register, of a Zcmp access and of a jump-table entry. -/
def Xlen.bytes : Xlen → Nat
  | .rv32 => 4
  | .rv64 => 8

/-- The units of EXT (00_scope.md R6), and Q, which two recorded rows of the opcode table name and which no machine of this
spec has (48_zfh_half_precision.md R519, R520). -/
inductive ExtUnit where
  | M | A | F | D | C | B | Zfh | Zcb | Zcmp | Zcmt | Q
  deriving DecidableEq, Repr

/-- EXT: which optional units are present (00_scope.md R6). -/
structure Ext where
  m : Bool
  a : Bool
  f : Bool
  d : Bool
  c : Bool
  b : Bool
  zfh : Bool
  zcb : Bool
  zcmp : Bool
  zcmt : Bool
  deriving DecidableEq, Repr

/-- Whether a unit is in EXT; Q never is. -/
def Ext.has (e : Ext) : ExtUnit → Bool
  | .M => e.m
  | .A => e.a
  | .F => e.f
  | .D => e.d
  | .C => e.c
  | .B => e.b
  | .Zfh => e.zfh
  | .Zcb => e.zcb
  | .Zcmp => e.zcmp
  | .Zcmt => e.zcmt
  | .Q => false

/-- The constraints on EXT of 00_scope.md R6: D and Zfh require F; Zcb, Zcmp and Zcmt require C. -/
def Ext.valid (e : Ext) : Bool :=
  (!e.d || e.f) && (!e.zfh || e.f) && (!e.zcb || e.c) && (!e.zcmp || e.c) && (!e.zcmt || e.c)

/-- FLEN: 64 with D, otherwise 32 (10_state.md R28). -/
def Ext.flen (e : Ext) : Nat := if e.d then 64 else 32

/-- IALIGN/8: 2 with C, otherwise 4 (00_scope.md R7). -/
def Ext.ialignBytes (e : Ext) : Nat := if e.c then 2 else 4

/-- MISALIGNED (20_memory.md R65). -/
inductive MisalignedMode where
  | trap
  | emulate
  deriving DecidableEq, Repr

/-- TRAP_DELIVERY (60_exceptions.md R613, R614). -/
inductive TrapDelivery where
  | environment
  | machine
  deriving DecidableEq, Repr

/-- One region of MEM_MAP with its permissions (20_memory.md R69). -/
structure Region where
  base : Nat
  len : Nat
  read : Bool
  write : Bool
  execute : Bool
  deriving DecidableEq, Repr

/-- HALT, the end-of-run predicate on the state that the launcher supplies (60_exceptions.md R628), as data (log 8). What a form
says of a state is `State.haltOn`. -/
inductive Halt where
  /-- A run never ends by HALT. -/
  | never
  /-- "pc equals a given address". -/
  | pcEquals (addr : Word)
  /-- The mode has the given number (10_state.md R39). -/
  | modeIs (code : BitVec 2)
  /-- An integer register has the bits of `value` under `mask`. -/
  | xMatches (r : RegIdx) (mask value : Word)
  /-- A floating-point register has the bits of `value` under `mask`. -/
  | fMatches (r : RegIdx) (mask value : Word)
  /-- A CSR of 10_state.md R33 has the bits of `value` under `mask`. -/
  | csrMatches (addr : CsrAddr) (mask value : Word)
  /-- The 4 bytes at `addr` hold `value`. -/
  | wordEquals (addr : Nat) (value : BitVec 32)
  /-- The `n` bytes at `addr` all have a value (10_state.md R43): "a given memory word has been written" where the image leaves
  the word without one. -/
  | hasValue (addr n : Nat)
  /-- The hart has stored to one of the `n` bytes at `addr` since its last fence.i (10_state.md R42): "a given memory word has
  been written" where the image gives the word a value. -/
  | stored (addr n : Nat)
  | not (h : Halt)
  | both (h k : Halt)
  | either (h k : Halt)
  /-- The launcher's n-th predicate: any predicate on the state whatever, of which nothing can be proved. -/
  | predicate (n : Nat)
  deriving DecidableEq, Repr

/-- The parameters of the machine (00_scope.md R5 to R7), fixed for a run. -/
structure Config where
  xlen : Xlen
  ext : Ext
  misaligned : MisalignedMode
  memMap : List Region
  trapDelivery : TrapDelivery
  resetPc : Word
  wfiInUMode : Bool
  scMayFailSpuriously : Bool
  fltFleQnanInvalid : Bool
  halt : Halt
  deriving DecidableEq, Repr

/-- All ten units: "The hardware the documents describe has all ten units" (00_scope.md R6). -/
def Ext.all : Ext := ⟨true, true, true, true, true, true, true, true, true, true⟩

/-- All units but Zcmp and Zcmt, the setting under which the compressed double-precision loads and stores exist
(46_c_compressed.md R394). -/
def Ext.noPushJump : Ext := { Ext.all with zcmp := false, zcmt := false }

/-- One region over the whole address space with all permissions: "A model that wants no access faults" (20_memory.md R69). -/
def Config.wholeSpace (xlen : Xlen) : List Region :=
  [{ base := 0, len := 2 ^ xlen.bits, read := true, write := true, execute := true }]

/-- The parameters of `State.reset`. DESIGN CHOICE, unsafe: the spec leaves every one of them open (log 1). -/
def Config.default : Config where
  xlen := .rv64
  ext := Ext.all
  misaligned := .trap
  memMap := Config.wholeSpace .rv64
  trapDelivery := .machine
  resetPc := 0x1000#64
  wfiInUMode := true
  scMayFailSpuriously := false
  fltFleQnanInvalid := false
  halt := .never

/-- The n-th FREE VALUE of a run: whatever the spec calls unspecified and lets the machine go on with is read from here,
each time with a fresh n (log 5). It has no body, so nothing can be proved about which value it is. -/
opaque Config.freeWord : Nat → Word

/-- The well-formedness of the parameters: EXT's constraints (00_scope.md R6), MEM_MAP's regions disjoint and inside the
address space (20_memory.md R69), RESET_PC aligned and XLEN bits wide (70_reset_and_hazards.md R651). -/
def Config.valid (c : Config) : Bool :=
  c.ext.valid
    && c.memMap.all (fun r => r.base + r.len ≤ 2 ^ c.xlen.bits)
    && decide (c.memMap.Pairwise (fun r q => r.base + r.len ≤ q.base ∨ q.base + q.len ≤ r.base))
    && c.resetPc.toNat % c.ext.ialignBytes == 0
    && decide (c.resetPc.toNat < 2 ^ c.xlen.bits)

end Sys2Proof
end

