-- ==== Sys2Proof/Syntax.lean ====
section
/-! DEFINITION. The instructions: one constructor per row of spec/opcode_table.json. Every bit of the encoding that the row
does not fix is a field, so a word can be written back from its instruction. An operand whose low bits the row does not hold
(a branch offset, a scaled offset) is the field of the bits it does hold; the meaning appends the zeros. -/

namespace Sys2Proof

/-- The instruction set of spec/opcode_table.json. The comment of each constructor gives the mnemonic, the rule that says what
it does, and the bits of the operand each scaled field holds. `rev8` and `zext.h` have one row, and one constructor, per XLEN.
The A and B families stand last because Lean's runtime can build only the first 244 constructors that have fields: the meanings,
which the compiler translates, build an instruction only to report its bits, and no instruction of A or B does (log 10). -/
inductive Instr where
  -- 40_base_compute_system.md
  /-- `lui` (R150); imm = bits 31:12. -/
  | lui (rd : RegIdx) (imm : BitVec 20)
  /-- `auipc` (R151); imm = bits 31:12. -/
  | auipc (rd : RegIdx) (imm : BitVec 20)
  /-- `addi` (R152). -/
  | addi (rd rs1 : RegIdx) (imm : BitVec 12)
  /-- `slti` (R153). -/
  | slti (rd rs1 : RegIdx) (imm : BitVec 12)
  /-- `sltiu` (R154). -/
  | sltiu (rd rs1 : RegIdx) (imm : BitVec 12)
  /-- `xori` (R155). -/
  | xori (rd rs1 : RegIdx) (imm : BitVec 12)
  /-- `ori` (R156). -/
  | ori (rd rs1 : RegIdx) (imm : BitVec 12)
  /-- `andi` (R157). -/
  | andi (rd rs1 : RegIdx) (imm : BitVec 12)
  /-- `slli` (R158). -/
  | slli (rd rs1 : RegIdx) (shamt : BitVec 6)
  /-- `srli` (R159). -/
  | srli (rd rs1 : RegIdx) (shamt : BitVec 6)
  /-- `srai` (R160). -/
  | srai (rd rs1 : RegIdx) (shamt : BitVec 6)
  /-- `add` (R161). -/
  | add (rd rs1 rs2 : RegIdx)
  /-- `sub` (R162). -/
  | sub (rd rs1 rs2 : RegIdx)
  /-- `sll` (R163). -/
  | sll (rd rs1 rs2 : RegIdx)
  /-- `slt` (R164). -/
  | slt (rd rs1 rs2 : RegIdx)
  /-- `sltu` (R165). -/
  | sltu (rd rs1 rs2 : RegIdx)
  /-- `xor` (R166). -/
  | xor (rd rs1 rs2 : RegIdx)
  /-- `srl` (R167). -/
  | srl (rd rs1 rs2 : RegIdx)
  /-- `sra` (R168). -/
  | sra (rd rs1 rs2 : RegIdx)
  /-- `or` (R169). -/
  | or (rd rs1 rs2 : RegIdx)
  /-- `and` (R170). -/
  | and (rd rs1 rs2 : RegIdx)
  /-- `fence` (R171). -/
  | fence (rd rs1 : RegIdx) (fm pred succ : BitVec 4)
  /-- `fence.i` (R172). -/
  | fenceI (rd rs1 : RegIdx) (imm : BitVec 12)
  /-- `csrrw` (R173). -/
  | csrrw (rd rs1 : RegIdx) (csr : CsrAddr)
  /-- `csrrs` (R174). -/
  | csrrs (rd rs1 : RegIdx) (csr : CsrAddr)
  /-- `csrrc` (R175). -/
  | csrrc (rd rs1 : RegIdx) (csr : CsrAddr)
  /-- `csrrwi` (R176). -/
  | csrrwi (rd : RegIdx) (csr : CsrAddr) (uimm : BitVec 5)
  /-- `csrrsi` (R177). -/
  | csrrsi (rd : RegIdx) (csr : CsrAddr) (uimm : BitVec 5)
  /-- `csrrci` (R178). -/
  | csrrci (rd : RegIdx) (csr : CsrAddr) (uimm : BitVec 5)
  /-- `ecall` (R179). -/
  | ecall
  /-- `ebreak` (R180). -/
  | ebreak
  /-- `sret` (R181). -/
  | sret
  /-- `mret` (R182). -/
  | mret
  /-- `wfi` (R183). -/
  | wfi
  /-- `sfence.vma` (R184). -/
  | sfenceVma (rs1 rs2 : RegIdx)
  -- 41_base_memory_control_rv64i.md
  /-- `lb` (R190). -/
  | lb (rd rs1 : RegIdx) (imm : BitVec 12)
  /-- `lh` (R191). -/
  | lh (rd rs1 : RegIdx) (imm : BitVec 12)
  /-- `lw` (R192). -/
  | lw (rd rs1 : RegIdx) (imm : BitVec 12)
  /-- `lbu` (R193). -/
  | lbu (rd rs1 : RegIdx) (imm : BitVec 12)
  /-- `lhu` (R194). -/
  | lhu (rd rs1 : RegIdx) (imm : BitVec 12)
  /-- `sb` (R195). -/
  | sb (rs1 rs2 : RegIdx) (imm : BitVec 12)
  /-- `sh` (R196). -/
  | sh (rs1 rs2 : RegIdx) (imm : BitVec 12)
  /-- `sw` (R197). -/
  | sw (rs1 rs2 : RegIdx) (imm : BitVec 12)
  /-- `jal` (R198); imm = bits 20:1. -/
  | jal (rd : RegIdx) (imm : BitVec 20)
  /-- `jalr` (R199). -/
  | jalr (rd rs1 : RegIdx) (imm : BitVec 12)
  /-- `beq` (R200); imm = bits 12:1. -/
  | beq (rs1 rs2 : RegIdx) (imm : BitVec 12)
  /-- `bne` (R201); imm = bits 12:1. -/
  | bne (rs1 rs2 : RegIdx) (imm : BitVec 12)
  /-- `blt` (R202); imm = bits 12:1. -/
  | blt (rs1 rs2 : RegIdx) (imm : BitVec 12)
  /-- `bge` (R203); imm = bits 12:1. -/
  | bge (rs1 rs2 : RegIdx) (imm : BitVec 12)
  /-- `bltu` (R204); imm = bits 12:1. -/
  | bltu (rs1 rs2 : RegIdx) (imm : BitVec 12)
  /-- `bgeu` (R205); imm = bits 12:1. -/
  | bgeu (rs1 rs2 : RegIdx) (imm : BitVec 12)
  /-- `addiw` (R206). -/
  | addiw (rd rs1 : RegIdx) (imm : BitVec 12)
  /-- `slliw` (R207). -/
  | slliw (rd rs1 : RegIdx) (shamt : BitVec 5)
  /-- `srliw` (R208). -/
  | srliw (rd rs1 : RegIdx) (shamt : BitVec 5)
  /-- `sraiw` (R209). -/
  | sraiw (rd rs1 : RegIdx) (shamt : BitVec 5)
  /-- `addw` (R210). -/
  | addw (rd rs1 rs2 : RegIdx)
  /-- `subw` (R211). -/
  | subw (rd rs1 rs2 : RegIdx)
  /-- `sllw` (R212). -/
  | sllw (rd rs1 rs2 : RegIdx)
  /-- `srlw` (R213). -/
  | srlw (rd rs1 rs2 : RegIdx)
  /-- `sraw` (R214). -/
  | sraw (rd rs1 rs2 : RegIdx)
  /-- `lwu` (R215). -/
  | lwu (rd rs1 : RegIdx) (imm : BitVec 12)
  /-- `ld` (R216). -/
  | ld (rd rs1 : RegIdx) (imm : BitVec 12)
  /-- `sd` (R217). -/
  | sd (rs1 rs2 : RegIdx) (imm : BitVec 12)
  -- 44_f_single.md
  /-- `fmadd.s` (R312). -/
  | fmaddS (rd rs1 rs2 rs3 : RegIdx) (rm : BitVec 3)
  /-- `fmsub.s` (R313). -/
  | fmsubS (rd rs1 rs2 rs3 : RegIdx) (rm : BitVec 3)
  /-- `fnmsub.s` (R314). -/
  | fnmsubS (rd rs1 rs2 rs3 : RegIdx) (rm : BitVec 3)
  /-- `fnmadd.s` (R315). -/
  | fnmaddS (rd rs1 rs2 rs3 : RegIdx) (rm : BitVec 3)
  /-- `fadd.s` (R316). -/
  | faddS (rd rs1 rs2 : RegIdx) (rm : BitVec 3)
  /-- `fsub.s` (R317). -/
  | fsubS (rd rs1 rs2 : RegIdx) (rm : BitVec 3)
  /-- `fmul.s` (R318). -/
  | fmulS (rd rs1 rs2 : RegIdx) (rm : BitVec 3)
  /-- `fdiv.s` (R319). -/
  | fdivS (rd rs1 rs2 : RegIdx) (rm : BitVec 3)
  /-- `fsqrt.s` (R320). -/
  | fsqrtS (rd rs1 : RegIdx) (rm : BitVec 3)
  /-- `fsgnj.s` (R321). -/
  | fsgnjS (rd rs1 rs2 : RegIdx)
  /-- `fsgnjn.s` (R322). -/
  | fsgnjnS (rd rs1 rs2 : RegIdx)
  /-- `fsgnjx.s` (R323). -/
  | fsgnjxS (rd rs1 rs2 : RegIdx)
  /-- `fmin.s` (R324). -/
  | fminS (rd rs1 rs2 : RegIdx)
  /-- `fmax.s` (R325). -/
  | fmaxS (rd rs1 rs2 : RegIdx)
  /-- `fcvt.w.s` (R326). -/
  | fcvtWS (rd rs1 : RegIdx) (rm : BitVec 3)
  /-- `fcvt.wu.s` (R327). -/
  | fcvtWuS (rd rs1 : RegIdx) (rm : BitVec 3)
  /-- `fmv.x.w` (R328). -/
  | fmvXW (rd rs1 : RegIdx)
  /-- `feq.s` (R329). -/
  | feqS (rd rs1 rs2 : RegIdx)
  /-- `flt.s` (R330). -/
  | fltS (rd rs1 rs2 : RegIdx)
  /-- `fle.s` (R331). -/
  | fleS (rd rs1 rs2 : RegIdx)
  /-- `fclass.s` (R332). -/
  | fclassS (rd rs1 : RegIdx)
  /-- `fcvt.s.w` (R333). -/
  | fcvtSW (rd rs1 : RegIdx) (rm : BitVec 3)
  /-- `fcvt.s.wu` (R334). -/
  | fcvtSWu (rd rs1 : RegIdx) (rm : BitVec 3)
  /-- `fmv.w.x` (R335). -/
  | fmvWX (rd rs1 : RegIdx)
  /-- `flw` (R336). -/
  | flw (rd rs1 : RegIdx) (imm : BitVec 12)
  /-- `fsw` (R337). -/
  | fsw (rs1 rs2 : RegIdx) (imm : BitVec 12)
  /-- `fcvt.l.s` (R338). -/
  | fcvtLS (rd rs1 : RegIdx) (rm : BitVec 3)
  /-- `fcvt.lu.s` (R339). -/
  | fcvtLuS (rd rs1 : RegIdx) (rm : BitVec 3)
  /-- `fcvt.s.l` (R340). -/
  | fcvtSL (rd rs1 : RegIdx) (rm : BitVec 3)
  /-- `fcvt.s.lu` (R341). -/
  | fcvtSLu (rd rs1 : RegIdx) (rm : BitVec 3)
  -- 45_d_double.md
  /-- `fmadd.d` (R351). -/
  | fmaddD (rd rs1 rs2 rs3 : RegIdx) (rm : BitVec 3)
  /-- `fmsub.d` (R352). -/
  | fmsubD (rd rs1 rs2 rs3 : RegIdx) (rm : BitVec 3)
  /-- `fnmsub.d` (R353). -/
  | fnmsubD (rd rs1 rs2 rs3 : RegIdx) (rm : BitVec 3)
  /-- `fnmadd.d` (R354). -/
  | fnmaddD (rd rs1 rs2 rs3 : RegIdx) (rm : BitVec 3)
  /-- `fadd.d` (R355). -/
  | faddD (rd rs1 rs2 : RegIdx) (rm : BitVec 3)
  /-- `fsub.d` (R356). -/
  | fsubD (rd rs1 rs2 : RegIdx) (rm : BitVec 3)
  /-- `fmul.d` (R357). -/
  | fmulD (rd rs1 rs2 : RegIdx) (rm : BitVec 3)
  /-- `fdiv.d` (R358). -/
  | fdivD (rd rs1 rs2 : RegIdx) (rm : BitVec 3)
  /-- `fsqrt.d` (R359). -/
  | fsqrtD (rd rs1 : RegIdx) (rm : BitVec 3)
  /-- `fsgnj.d` (R360). -/
  | fsgnjD (rd rs1 rs2 : RegIdx)
  /-- `fsgnjn.d` (R361). -/
  | fsgnjnD (rd rs1 rs2 : RegIdx)
  /-- `fsgnjx.d` (R362). -/
  | fsgnjxD (rd rs1 rs2 : RegIdx)
  /-- `fmin.d` (R363). -/
  | fminD (rd rs1 rs2 : RegIdx)
  /-- `fmax.d` (R364). -/
  | fmaxD (rd rs1 rs2 : RegIdx)
  /-- `fcvt.s.d` (R365). -/
  | fcvtSD (rd rs1 : RegIdx) (rm : BitVec 3)
  /-- `fcvt.d.s` (R366). -/
  | fcvtDS (rd rs1 : RegIdx) (rm : BitVec 3)
  /-- `feq.d` (R367). -/
  | feqD (rd rs1 rs2 : RegIdx)
  /-- `flt.d` (R368). -/
  | fltD (rd rs1 rs2 : RegIdx)
  /-- `fle.d` (R369). -/
  | fleD (rd rs1 rs2 : RegIdx)
  /-- `fclass.d` (R370). -/
  | fclassD (rd rs1 : RegIdx)
  /-- `fcvt.w.d` (R371). -/
  | fcvtWD (rd rs1 : RegIdx) (rm : BitVec 3)
  /-- `fcvt.wu.d` (R372). -/
  | fcvtWuD (rd rs1 : RegIdx) (rm : BitVec 3)
  /-- `fcvt.d.w` (R373). -/
  | fcvtDW (rd rs1 : RegIdx) (rm : BitVec 3)
  /-- `fcvt.d.wu` (R374). -/
  | fcvtDWu (rd rs1 : RegIdx) (rm : BitVec 3)
  /-- `fld` (R375). -/
  | fld (rd rs1 : RegIdx) (imm : BitVec 12)
  /-- `fsd` (R376). -/
  | fsd (rs1 rs2 : RegIdx) (imm : BitVec 12)
  /-- `fcvt.l.d` (R377). -/
  | fcvtLD (rd rs1 : RegIdx) (rm : BitVec 3)
  /-- `fcvt.lu.d` (R378). -/
  | fcvtLuD (rd rs1 : RegIdx) (rm : BitVec 3)
  /-- `fmv.x.d` (R379). -/
  | fmvXD (rd rs1 : RegIdx)
  /-- `fcvt.d.l` (R380). -/
  | fcvtDL (rd rs1 : RegIdx) (rm : BitVec 3)
  /-- `fcvt.d.lu` (R381). -/
  | fcvtDLu (rd rs1 : RegIdx) (rm : BitVec 3)
  /-- `fmv.d.x` (R382). -/
  | fmvDX (rd rs1 : RegIdx)
  -- 48_zfh_half_precision.md
  /-- `fmadd.h` (R501). -/
  | fmaddH (rd rs1 rs2 rs3 : RegIdx) (rm : BitVec 3)
  /-- `fmsub.h` (R502). -/
  | fmsubH (rd rs1 rs2 rs3 : RegIdx) (rm : BitVec 3)
  /-- `fnmsub.h` (R503). -/
  | fnmsubH (rd rs1 rs2 rs3 : RegIdx) (rm : BitVec 3)
  /-- `fnmadd.h` (R504). -/
  | fnmaddH (rd rs1 rs2 rs3 : RegIdx) (rm : BitVec 3)
  /-- `fadd.h` (R505). -/
  | faddH (rd rs1 rs2 : RegIdx) (rm : BitVec 3)
  /-- `fsub.h` (R506). -/
  | fsubH (rd rs1 rs2 : RegIdx) (rm : BitVec 3)
  /-- `fmul.h` (R507). -/
  | fmulH (rd rs1 rs2 : RegIdx) (rm : BitVec 3)
  /-- `fdiv.h` (R508). -/
  | fdivH (rd rs1 rs2 : RegIdx) (rm : BitVec 3)
  /-- `fsqrt.h` (R509). -/
  | fsqrtH (rd rs1 : RegIdx) (rm : BitVec 3)
  /-- `fsgnj.h` (R510). -/
  | fsgnjH (rd rs1 rs2 : RegIdx)
  /-- `fsgnjn.h` (R511). -/
  | fsgnjnH (rd rs1 rs2 : RegIdx)
  /-- `fsgnjx.h` (R512). -/
  | fsgnjxH (rd rs1 rs2 : RegIdx)
  /-- `fmin.h` (R513). -/
  | fminH (rd rs1 rs2 : RegIdx)
  /-- `fmax.h` (R514). -/
  | fmaxH (rd rs1 rs2 : RegIdx)
  /-- `fcvt.s.h` (R515). -/
  | fcvtSH (rd rs1 : RegIdx) (rm : BitVec 3)
  /-- `fcvt.h.s` (R516). -/
  | fcvtHS (rd rs1 : RegIdx) (rm : BitVec 3)
  /-- `fcvt.d.h` (R517). -/
  | fcvtDH (rd rs1 : RegIdx) (rm : BitVec 3)
  /-- `fcvt.h.d` (R518). -/
  | fcvtHD (rd rs1 : RegIdx) (rm : BitVec 3)
  /-- `fcvt.q.h` (R519). -/
  | fcvtQH (rd rs1 : RegIdx) (rm : BitVec 3)
  /-- `fcvt.h.q` (R520). -/
  | fcvtHQ (rd rs1 : RegIdx) (rm : BitVec 3)
  /-- `feq.h` (R521). -/
  | feqH (rd rs1 rs2 : RegIdx)
  /-- `flt.h` (R522). -/
  | fltH (rd rs1 rs2 : RegIdx)
  /-- `fle.h` (R523). -/
  | fleH (rd rs1 rs2 : RegIdx)
  /-- `fclass.h` (R524). -/
  | fclassH (rd rs1 : RegIdx)
  /-- `fcvt.w.h` (R525). -/
  | fcvtWH (rd rs1 : RegIdx) (rm : BitVec 3)
  /-- `fcvt.wu.h` (R526). -/
  | fcvtWuH (rd rs1 : RegIdx) (rm : BitVec 3)
  /-- `fmv.x.h` (R527). -/
  | fmvXH (rd rs1 : RegIdx)
  /-- `fcvt.h.w` (R528). -/
  | fcvtHW (rd rs1 : RegIdx) (rm : BitVec 3)
  /-- `fcvt.h.wu` (R529). -/
  | fcvtHWu (rd rs1 : RegIdx) (rm : BitVec 3)
  /-- `fmv.h.x` (R530). -/
  | fmvHX (rd rs1 : RegIdx)
  /-- `flh` (R531). -/
  | flh (rd rs1 : RegIdx) (imm : BitVec 12)
  /-- `fsh` (R532). -/
  | fsh (rs1 rs2 : RegIdx) (imm : BitVec 12)
  /-- `fcvt.l.h` (R533). -/
  | fcvtLH (rd rs1 : RegIdx) (rm : BitVec 3)
  /-- `fcvt.lu.h` (R534). -/
  | fcvtLuH (rd rs1 : RegIdx) (rm : BitVec 3)
  /-- `fcvt.h.l` (R535). -/
  | fcvtHL (rd rs1 : RegIdx) (rm : BitVec 3)
  /-- `fcvt.h.lu` (R536). -/
  | fcvtHLu (rd rs1 : RegIdx) (rm : BitVec 3)
  -- 46_c_compressed.md
  /-- `c.addi4spn` (R395); nzuimm = bits 9:2. -/
  | cAddi4spn (rd : CRegIdx) (nzuimm : BitVec 8)
  /-- `c.fld` (R396); uimm = bits 7:3. -/
  | cFld (rd rs1 : CRegIdx) (uimm : BitVec 5)
  /-- `c.lw` (R397); uimm = bits 6:2. -/
  | cLw (rd rs1 : CRegIdx) (uimm : BitVec 5)
  /-- `c.flw` (R398); uimm = bits 6:2. -/
  | cFlw (rd rs1 : CRegIdx) (uimm : BitVec 5)
  /-- `c.ld` (R399); uimm = bits 7:3. -/
  | cLd (rd rs1 : CRegIdx) (uimm : BitVec 5)
  /-- `c.fsd` (R400); uimm = bits 7:3. -/
  | cFsd (rs1 rs2 : CRegIdx) (uimm : BitVec 5)
  /-- `c.sw` (R401); uimm = bits 6:2. -/
  | cSw (rs1 rs2 : CRegIdx) (uimm : BitVec 5)
  /-- `c.fsw` (R402); uimm = bits 6:2. -/
  | cFsw (rs1 rs2 : CRegIdx) (uimm : BitVec 5)
  /-- `c.sd` (R403); uimm = bits 7:3. -/
  | cSd (rs1 rs2 : CRegIdx) (uimm : BitVec 5)
  /-- `c.nop` (R404). -/
  | cNop (imm : BitVec 6)
  /-- `c.addi` (R405). -/
  | cAddi (rd : RegIdx) (imm : BitVec 6)
  /-- `c.jal` (R406); imm = bits 11:1. -/
  | cJal (imm : BitVec 11)
  /-- `c.addiw` (R407). -/
  | cAddiw (rd : RegIdx) (imm : BitVec 6)
  /-- `c.li` (R408). -/
  | cLi (rd : RegIdx) (imm : BitVec 6)
  /-- `c.addi16sp` (R409); nzimm = bits 9:4. -/
  | cAddi16sp (nzimm : BitVec 6)
  /-- `c.lui` (R410); nzimm = bits 17:12. -/
  | cLui (rd : RegIdx) (nzimm : BitVec 6)
  /-- `c.srli` (R411). -/
  | cSrli (rd : CRegIdx) (shamt : BitVec 6)
  /-- `c.srai` (R412). -/
  | cSrai (rd : CRegIdx) (shamt : BitVec 6)
  /-- `c.andi` (R413). -/
  | cAndi (rd : CRegIdx) (imm : BitVec 6)
  /-- `c.sub` (R414). -/
  | cSub (rd rs2 : CRegIdx)
  /-- `c.xor` (R415). -/
  | cXor (rd rs2 : CRegIdx)
  /-- `c.or` (R416). -/
  | cOr (rd rs2 : CRegIdx)
  /-- `c.and` (R417). -/
  | cAnd (rd rs2 : CRegIdx)
  /-- `c.subw` (R418). -/
  | cSubw (rd rs2 : CRegIdx)
  /-- `c.addw` (R419). -/
  | cAddw (rd rs2 : CRegIdx)
  /-- `c.j` (R420); imm = bits 11:1. -/
  | cJ (imm : BitVec 11)
  /-- `c.beqz` (R421); imm = bits 8:1. -/
  | cBeqz (rs1 : CRegIdx) (imm : BitVec 8)
  /-- `c.bnez` (R422); imm = bits 8:1. -/
  | cBnez (rs1 : CRegIdx) (imm : BitVec 8)
  /-- `c.slli` (R423). -/
  | cSlli (rd : RegIdx) (shamt : BitVec 6)
  /-- `c.fldsp` (R424); uimm = bits 8:3. -/
  | cFldsp (rd : RegIdx) (uimm : BitVec 6)
  /-- `c.lwsp` (R425); uimm = bits 7:2. -/
  | cLwsp (rd : RegIdx) (uimm : BitVec 6)
  /-- `c.flwsp` (R426); uimm = bits 7:2. -/
  | cFlwsp (rd : RegIdx) (uimm : BitVec 6)
  /-- `c.ldsp` (R427); uimm = bits 8:3. -/
  | cLdsp (rd : RegIdx) (uimm : BitVec 6)
  /-- `c.jr` (R428). -/
  | cJr (rs1 : RegIdx)
  /-- `c.mv` (R429). -/
  | cMv (rd rs2 : RegIdx)
  /-- `c.ebreak` (R430). -/
  | cEbreak
  /-- `c.jalr` (R431). -/
  | cJalr (rs1 : RegIdx)
  /-- `c.add` (R432). -/
  | cAdd (rd rs2 : RegIdx)
  /-- `c.fsdsp` (R433); uimm = bits 8:3. -/
  | cFsdsp (rs2 : RegIdx) (uimm : BitVec 6)
  /-- `c.swsp` (R434); uimm = bits 7:2. -/
  | cSwsp (rs2 : RegIdx) (uimm : BitVec 6)
  /-- `c.fswsp` (R435); uimm = bits 7:2. -/
  | cFswsp (rs2 : RegIdx) (uimm : BitVec 6)
  /-- `c.sdsp` (R436); uimm = bits 8:3. -/
  | cSdsp (rs2 : RegIdx) (uimm : BitVec 6)
  -- 49_zc_code_size.md
  /-- `c.lbu` (R556). -/
  | cLbu (rd rs1 : CRegIdx) (uimm : BitVec 2)
  /-- `c.lhu` (R557); uimm = bits 1:1. -/
  | cLhu (rd rs1 : CRegIdx) (uimm : BitVec 1)
  /-- `c.lh` (R558); uimm = bits 1:1. -/
  | cLh (rd rs1 : CRegIdx) (uimm : BitVec 1)
  /-- `c.sb` (R559). -/
  | cSb (rs1 rs2 : CRegIdx) (uimm : BitVec 2)
  /-- `c.sh` (R560); uimm = bits 1:1. -/
  | cSh (rs1 rs2 : CRegIdx) (uimm : BitVec 1)
  /-- `c.zext.b` (R561). -/
  | cZextB (rsd : CRegIdx)
  /-- `c.sext.b` (R562). -/
  | cSextB (rsd : CRegIdx)
  /-- `c.zext.h` (R563). -/
  | cZextH (rsd : CRegIdx)
  /-- `c.sext.h` (R564). -/
  | cSextH (rsd : CRegIdx)
  /-- `c.zext.w` (R565). -/
  | cZextW (rsd : CRegIdx)
  /-- `c.not` (R566). -/
  | cNot (rsd : CRegIdx)
  /-- `c.mul` (R567). -/
  | cMul (rsd rs2 : CRegIdx)
  /-- `cm.push` (R568). -/
  | cmPush (rlist : BitVec 4) (spimm : BitVec 2)
  /-- `cm.pop` (R569). -/
  | cmPop (rlist : BitVec 4) (spimm : BitVec 2)
  /-- `cm.popretz` (R570). -/
  | cmPopretz (rlist : BitVec 4) (spimm : BitVec 2)
  /-- `cm.popret` (R571). -/
  | cmPopret (rlist : BitVec 4) (spimm : BitVec 2)
  /-- `cm.mvsa01` (R572). -/
  | cmMvsa01 (r1s r2s : CRegIdx)
  /-- `cm.mva01s` (R573). -/
  | cmMva01s (r1s r2s : CRegIdx)
  /-- `cm.jt` (R574). -/
  | cmJt (index : BitVec 8)
  /-- `cm.jalt` (R575). -/
  | cmJalt (index : BitVec 8)
  -- 42_m_multiply_divide.md
  /-- `mul` (R231). -/
  | mul (rd rs1 rs2 : RegIdx)
  /-- `mulh` (R232). -/
  | mulh (rd rs1 rs2 : RegIdx)
  /-- `mulhsu` (R233). -/
  | mulhsu (rd rs1 rs2 : RegIdx)
  /-- `mulhu` (R234). -/
  | mulhu (rd rs1 rs2 : RegIdx)
  /-- `div` (R235). -/
  | div (rd rs1 rs2 : RegIdx)
  /-- `divu` (R236). -/
  | divu (rd rs1 rs2 : RegIdx)
  /-- `rem` (R237). -/
  | rem (rd rs1 rs2 : RegIdx)
  /-- `remu` (R238). -/
  | remu (rd rs1 rs2 : RegIdx)
  /-- `mulw` (R239). -/
  | mulw (rd rs1 rs2 : RegIdx)
  /-- `divw` (R240). -/
  | divw (rd rs1 rs2 : RegIdx)
  /-- `divuw` (R241). -/
  | divuw (rd rs1 rs2 : RegIdx)
  /-- `remw` (R242). -/
  | remw (rd rs1 rs2 : RegIdx)
  /-- `remuw` (R243). -/
  | remuw (rd rs1 rs2 : RegIdx)
  -- 43_a_atomic.md
  /-- `lr.w` (R254). -/
  | lrW (rd rs1 : RegIdx) (aq rl : BitVec 1)
  /-- `sc.w` (R255). -/
  | scW (rd rs1 rs2 : RegIdx) (aq rl : BitVec 1)
  /-- `amoswap.w` (R256). -/
  | amoswapW (rd rs1 rs2 : RegIdx) (aq rl : BitVec 1)
  /-- `amoadd.w` (R257). -/
  | amoaddW (rd rs1 rs2 : RegIdx) (aq rl : BitVec 1)
  /-- `amoxor.w` (R258). -/
  | amoxorW (rd rs1 rs2 : RegIdx) (aq rl : BitVec 1)
  /-- `amoand.w` (R259). -/
  | amoandW (rd rs1 rs2 : RegIdx) (aq rl : BitVec 1)
  /-- `amoor.w` (R260). -/
  | amoorW (rd rs1 rs2 : RegIdx) (aq rl : BitVec 1)
  /-- `amomin.w` (R261). -/
  | amominW (rd rs1 rs2 : RegIdx) (aq rl : BitVec 1)
  /-- `amomax.w` (R262). -/
  | amomaxW (rd rs1 rs2 : RegIdx) (aq rl : BitVec 1)
  /-- `amominu.w` (R263). -/
  | amominuW (rd rs1 rs2 : RegIdx) (aq rl : BitVec 1)
  /-- `amomaxu.w` (R264). -/
  | amomaxuW (rd rs1 rs2 : RegIdx) (aq rl : BitVec 1)
  /-- `lr.d` (R265). -/
  | lrD (rd rs1 : RegIdx) (aq rl : BitVec 1)
  /-- `sc.d` (R266). -/
  | scD (rd rs1 rs2 : RegIdx) (aq rl : BitVec 1)
  /-- `amoswap.d` (R267). -/
  | amoswapD (rd rs1 rs2 : RegIdx) (aq rl : BitVec 1)
  /-- `amoadd.d` (R268). -/
  | amoaddD (rd rs1 rs2 : RegIdx) (aq rl : BitVec 1)
  /-- `amoxor.d` (R269). -/
  | amoxorD (rd rs1 rs2 : RegIdx) (aq rl : BitVec 1)
  /-- `amoand.d` (R270). -/
  | amoandD (rd rs1 rs2 : RegIdx) (aq rl : BitVec 1)
  /-- `amoor.d` (R271). -/
  | amoorD (rd rs1 rs2 : RegIdx) (aq rl : BitVec 1)
  /-- `amomin.d` (R272). -/
  | amominD (rd rs1 rs2 : RegIdx) (aq rl : BitVec 1)
  /-- `amomax.d` (R273). -/
  | amomaxD (rd rs1 rs2 : RegIdx) (aq rl : BitVec 1)
  /-- `amominu.d` (R274). -/
  | amominuD (rd rs1 rs2 : RegIdx) (aq rl : BitVec 1)
  /-- `amomaxu.d` (R275). -/
  | amomaxuD (rd rs1 rs2 : RegIdx) (aq rl : BitVec 1)
  -- 47_b_bit_manipulation.md
  /-- `add.uw` (R441). -/
  | addUw (rd rs1 rs2 : RegIdx)
  /-- `sh1add` (R442). -/
  | sh1add (rd rs1 rs2 : RegIdx)
  /-- `sh1add.uw` (R443). -/
  | sh1addUw (rd rs1 rs2 : RegIdx)
  /-- `sh2add` (R444). -/
  | sh2add (rd rs1 rs2 : RegIdx)
  /-- `sh2add.uw` (R445). -/
  | sh2addUw (rd rs1 rs2 : RegIdx)
  /-- `sh3add` (R446). -/
  | sh3add (rd rs1 rs2 : RegIdx)
  /-- `sh3add.uw` (R447). -/
  | sh3addUw (rd rs1 rs2 : RegIdx)
  /-- `slli.uw` (R448). -/
  | slliUw (rd rs1 : RegIdx) (shamt : BitVec 6)
  /-- `andn` (R449). -/
  | andn (rd rs1 rs2 : RegIdx)
  /-- `orn` (R450). -/
  | orn (rd rs1 rs2 : RegIdx)
  /-- `xnor` (R451). -/
  | xnor (rd rs1 rs2 : RegIdx)
  /-- `clz` (R452). -/
  | clz (rd rs1 : RegIdx)
  /-- `clzw` (R453). -/
  | clzw (rd rs1 : RegIdx)
  /-- `ctz` (R454). -/
  | ctz (rd rs1 : RegIdx)
  /-- `ctzw` (R455). -/
  | ctzw (rd rs1 : RegIdx)
  /-- `cpop` (R456). -/
  | cpop (rd rs1 : RegIdx)
  /-- `cpopw` (R457). -/
  | cpopw (rd rs1 : RegIdx)
  /-- `max` (R458). -/
  | max (rd rs1 rs2 : RegIdx)
  /-- `maxu` (R459). -/
  | maxu (rd rs1 rs2 : RegIdx)
  /-- `min` (R460). -/
  | min (rd rs1 rs2 : RegIdx)
  /-- `minu` (R461). -/
  | minu (rd rs1 rs2 : RegIdx)
  /-- `sext.b` (R462). -/
  | sextB (rd rs1 : RegIdx)
  /-- `sext.h` (R463). -/
  | sextH (rd rs1 : RegIdx)
  /-- `zext.h` on RV32 (R464). -/
  | zextHRv32 (rd rs1 : RegIdx)
  /-- `zext.h` on RV64 (R464). -/
  | zextHRv64 (rd rs1 : RegIdx)
  /-- `rol` (R465). -/
  | rol (rd rs1 rs2 : RegIdx)
  /-- `rolw` (R466). -/
  | rolw (rd rs1 rs2 : RegIdx)
  /-- `ror` (R467). -/
  | ror (rd rs1 rs2 : RegIdx)
  /-- `rori` (R468). -/
  | rori (rd rs1 : RegIdx) (shamt : BitVec 6)
  /-- `roriw` (R469). -/
  | roriw (rd rs1 : RegIdx) (shamt : BitVec 5)
  /-- `rorw` (R470). -/
  | rorw (rd rs1 rs2 : RegIdx)
  /-- `orc.b` (R471). -/
  | orcB (rd rs1 : RegIdx)
  /-- `rev8` on RV32 (R472). -/
  | rev8Rv32 (rd rs1 : RegIdx)
  /-- `rev8` on RV64 (R472). -/
  | rev8Rv64 (rd rs1 : RegIdx)
  /-- `clmul` (R473). -/
  | clmul (rd rs1 rs2 : RegIdx)
  /-- `clmulh` (R474). -/
  | clmulh (rd rs1 rs2 : RegIdx)
  /-- `clmulr` (R475). -/
  | clmulr (rd rs1 rs2 : RegIdx)
  /-- `bclr` (R476). -/
  | bclr (rd rs1 rs2 : RegIdx)
  /-- `bclri` (R477). -/
  | bclri (rd rs1 : RegIdx) (shamt : BitVec 6)
  /-- `bext` (R478). -/
  | bext (rd rs1 rs2 : RegIdx)
  /-- `bexti` (R479). -/
  | bexti (rd rs1 : RegIdx) (shamt : BitVec 6)
  /-- `binv` (R480). -/
  | binv (rd rs1 rs2 : RegIdx)
  /-- `binvi` (R481). -/
  | binvi (rd rs1 : RegIdx) (shamt : BitVec 6)
  /-- `bset` (R482). -/
  | bset (rd rs1 rs2 : RegIdx)
  /-- `bseti` (R483). -/
  | bseti (rd rs1 : RegIdx) (shamt : BitVec 6)
  deriving DecidableEq, Repr

end Sys2Proof
end

