-- ==== Sys2Proof/WellFormed.lean ====
section
/-! DEFINITION. When an instruction exists on a machine (XLEN, EXT: 30_encoding.md R122) and when its fields are those of the
instruction and not of a reserved code point (the `require` conditions of spec/opcode_table.json). -/

namespace Sys2Proof

/-- The machines a row of the opcode table exists on: its `xlen`, `ext`, `not_ext` and `admitted` entries (30_encoding.md R122). -/
structure Availability where
  on32 : Bool
  on64 : Bool
  needs : List ExtUnit
  excludes : List ExtUnit
  admitted : Bool
  deriving DecidableEq, Repr

/-- A row that exists on both widths and needs the given units. -/
def Availability.both (needs : List ExtUnit) : Availability := ⟨true, true, needs, [], true⟩

/-- A row that exists on RV64 only. -/
def Availability.only64 (needs : List ExtUnit) : Availability := ⟨false, true, needs, [], true⟩

/-- A row that exists on RV32 only. -/
def Availability.only32 (needs : List ExtUnit) : Availability := ⟨true, false, needs, [], true⟩

/-- The availability of each instruction. A 16-bit row needs C as well as its own units (46_c_compressed.md R390,
49_zc_code_size.md R550). -/
def Instr.availability : Instr → Availability
  | .lui .. | .auipc .. | .addi .. | .slti .. | .sltiu .. | .xori .. | .ori .. | .andi .. | .slli .. | .srli ..
  | .srai .. | .add .. | .sub .. | .sll .. | .slt .. | .sltu .. | .xor .. | .srl .. | .sra .. | .or .. | .and ..
  | .fence .. | .fenceI .. | .csrrw .. | .csrrs .. | .csrrc .. | .csrrwi .. | .csrrsi .. | .csrrci .. | .ecall
  | .ebreak | .sret | .mret | .wfi | .sfenceVma .. | .lb .. | .lh .. | .lw .. | .lbu .. | .lhu .. | .sb .. | .sh ..
  | .sw .. | .jal .. | .jalr .. | .beq .. | .bne .. | .blt .. | .bge .. | .bltu .. | .bgeu .. =>
    .both []
  | .addiw .. | .slliw .. | .srliw .. | .sraiw .. | .addw .. | .subw .. | .sllw .. | .srlw .. | .sraw .. | .lwu ..
  | .ld .. | .sd .. =>
    .only64 []
  | .fmaddS .. | .fmsubS .. | .fnmsubS .. | .fnmaddS .. | .faddS .. | .fsubS .. | .fmulS .. | .fdivS .. | .fsqrtS ..
  | .fsgnjS .. | .fsgnjnS .. | .fsgnjxS .. | .fminS .. | .fmaxS .. | .fcvtWS .. | .fcvtWuS .. | .fmvXW .. | .feqS ..
  | .fltS .. | .fleS .. | .fclassS .. | .fcvtSW .. | .fcvtSWu .. | .fmvWX .. | .flw .. | .fsw .. =>
    .both [.F]
  | .fcvtLS .. | .fcvtLuS .. | .fcvtSL .. | .fcvtSLu .. =>
    .only64 [.F]
  | .fmaddD .. | .fmsubD .. | .fnmsubD .. | .fnmaddD .. | .faddD .. | .fsubD .. | .fmulD .. | .fdivD .. | .fsqrtD ..
  | .fsgnjD .. | .fsgnjnD .. | .fsgnjxD .. | .fminD .. | .fmaxD .. | .fcvtSD .. | .fcvtDS .. | .feqD .. | .fltD ..
  | .fleD .. | .fclassD .. | .fcvtWD .. | .fcvtWuD .. | .fcvtDW .. | .fcvtDWu .. | .fld .. | .fsd .. =>
    .both [.D]
  | .fcvtLD .. | .fcvtLuD .. | .fmvXD .. | .fcvtDL .. | .fcvtDLu .. | .fmvDX .. =>
    .only64 [.D]
  | .fmaddH .. | .fmsubH .. | .fnmsubH .. | .fnmaddH .. | .faddH .. | .fsubH .. | .fmulH .. | .fdivH .. | .fsqrtH ..
  | .fsgnjH .. | .fsgnjnH .. | .fsgnjxH .. | .fminH .. | .fmaxH .. | .fcvtSH .. | .fcvtHS .. | .feqH .. | .fltH ..
  | .fleH .. | .fclassH .. | .fcvtWH .. | .fcvtWuH .. | .fmvXH .. | .fcvtHW .. | .fcvtHWu .. | .fmvHX .. | .flh ..
  | .fsh .. =>
    .both [.Zfh]
  | .fcvtDH .. | .fcvtHD .. =>
    .both [.Zfh, .D]
  | .fcvtQH .. | .fcvtHQ .. =>
    ⟨true, true, [.Zfh, .Q], [], false⟩
  | .fcvtLH .. | .fcvtLuH .. | .fcvtHL .. | .fcvtHLu .. =>
    .only64 [.Zfh]
  | .cAddi4spn .. | .cLw .. | .cSw .. | .cNop .. | .cAddi .. | .cLi .. | .cAddi16sp .. | .cLui .. | .cSrli ..
  | .cSrai .. | .cAndi .. | .cSub .. | .cXor .. | .cOr .. | .cAnd .. | .cJ .. | .cBeqz .. | .cBnez .. | .cSlli ..
  | .cLwsp .. | .cJr .. | .cMv .. | .cEbreak | .cJalr .. | .cAdd .. | .cSwsp .. =>
    .both [.C]
  | .cFld .. | .cFsd .. | .cFldsp .. | .cFsdsp .. =>
    ⟨true, true, [.C, .D], [.Zcmp, .Zcmt], true⟩
  | .cFlw .. | .cFsw .. | .cFlwsp .. | .cFswsp .. =>
    .only32 [.C, .F]
  | .cLd .. | .cSd .. | .cAddiw .. | .cSubw .. | .cAddw .. | .cLdsp .. | .cSdsp .. =>
    .only64 [.C]
  | .cJal .. =>
    .only32 [.C]
  | .cLbu .. | .cLhu .. | .cLh .. | .cSb .. | .cSh .. | .cZextB .. | .cNot .. =>
    .both [.C, .Zcb]
  | .cSextB .. | .cZextH .. | .cSextH .. =>
    .both [.C, .Zcb, .B]
  | .cZextW .. =>
    .only64 [.C, .Zcb, .B]
  | .cMul .. =>
    .both [.C, .Zcb, .M]
  | .cmPush .. | .cmPop .. | .cmPopretz .. | .cmPopret .. | .cmMvsa01 .. | .cmMva01s .. =>
    .both [.C, .Zcmp]
  | .cmJt .. | .cmJalt .. =>
    .both [.C, .Zcmt]
  | .mul .. | .mulh .. | .mulhsu .. | .mulhu .. | .div .. | .divu .. | .rem .. | .remu .. =>
    .both [.M]
  | .mulw .. | .divw .. | .divuw .. | .remw .. | .remuw .. =>
    .only64 [.M]
  | .lrW .. | .scW .. | .amoswapW .. | .amoaddW .. | .amoxorW .. | .amoandW .. | .amoorW .. | .amominW ..
  | .amomaxW .. | .amominuW .. | .amomaxuW .. =>
    .both [.A]
  | .lrD .. | .scD .. | .amoswapD .. | .amoaddD .. | .amoxorD .. | .amoandD .. | .amoorD .. | .amominD ..
  | .amomaxD .. | .amominuD .. | .amomaxuD .. =>
    .only64 [.A]
  | .addUw .. | .sh1addUw .. | .sh2addUw .. | .sh3addUw .. | .slliUw .. | .clzw .. | .ctzw .. | .cpopw ..
  | .zextHRv64 .. | .rolw .. | .roriw .. | .rorw .. | .rev8Rv64 .. =>
    .only64 [.B]
  | .sh1add .. | .sh2add .. | .sh3add .. | .andn .. | .orn .. | .xnor .. | .clz .. | .ctz .. | .cpop .. | .max ..
  | .maxu .. | .min .. | .minu .. | .sextB .. | .sextH .. | .rol .. | .ror .. | .rori .. | .orcB .. | .clmul ..
  | .clmulh .. | .clmulr .. | .bclr .. | .bclri .. | .bext .. | .bexti .. | .binv .. | .binvi .. | .bset ..
  | .bseti .. =>
    .both [.B]
  | .zextHRv32 .. | .rev8Rv32 .. =>
    .only32 [.B]

/-- Whether a machine of the given XLEN and EXT has the instruction (30_encoding.md R122). -/
def Availability.on (v : Availability) (xlen : Xlen) (ext : Ext) : Bool :=
  (match xlen with | .rv32 => v.on32 | .rv64 => v.on64)
    && v.needs.all ext.has && v.excludes.all (fun u => !ext.has u) && v.admitted

/-- On RV32 a 6-bit shift amount has bit 5 zero (30_encoding.md R109, 46_c_compressed.md R393). -/
def shamtOk (xlen : Xlen) (shamt : BitVec 6) : Bool :=
  match xlen with
  | .rv32 => !shamt.getLsbD 5
  | .rv64 => true

/-- The `require` conditions of the row on the instruction's fields (30_encoding.md R122). -/
def Instr.fieldsOk (xlen : Xlen) : Instr → Bool
  | .slli _ _ shamt => shamtOk xlen shamt
  | .srli _ _ shamt => shamtOk xlen shamt
  | .srai _ _ shamt => shamtOk xlen shamt
  | .cAddi4spn _ nzuimm => nzuimm != 0#8
  | .cAddi rd _ => rd != 0#5
  | .cAddiw rd _ => rd != 0#5
  | .cAddi16sp nzimm => nzimm != 0#6
  | .cLui rd nzimm => rd != 2#5 && nzimm != 0#6
  | .cSrli _ shamt => shamtOk xlen shamt
  | .cSrai _ shamt => shamtOk xlen shamt
  | .cSlli _ shamt => shamtOk xlen shamt
  | .cLwsp rd _ => rd != 0#5
  | .cLdsp rd _ => rd != 0#5
  | .cJr rs1 => rs1 != 0#5
  | .cMv _ rs2 => rs2 != 0#5
  | .cJalr rs1 => rs1 != 0#5
  | .cAdd _ rs2 => rs2 != 0#5
  | .cmPush rlist _ => decide (4 ≤ rlist.toNat)
  | .cmPop rlist _ => decide (4 ≤ rlist.toNat)
  | .cmPopretz rlist _ => decide (4 ≤ rlist.toNat)
  | .cmPopret rlist _ => decide (4 ≤ rlist.toNat)
  | .cmMvsa01 r1s r2s => r1s != r2s
  | .cmJt index => decide (index.toNat < 32)
  | .cmJalt index => decide (32 ≤ index.toNat)
  | .rori _ _ shamt => shamtOk xlen shamt
  | .bclri _ _ shamt => shamtOk xlen shamt
  | .bexti _ _ shamt => shamtOk xlen shamt
  | .binvi _ _ shamt => shamtOk xlen shamt
  | .bseti _ _ shamt => shamtOk xlen shamt
  | .lui .. | .auipc .. | .addi .. | .slti .. | .sltiu .. | .xori .. | .ori .. | .andi .. | .add .. | .sub ..
  | .sll .. | .slt .. | .sltu .. | .xor .. | .srl .. | .sra .. | .or .. | .and .. | .fence .. | .fenceI ..
  | .csrrw .. | .csrrs .. | .csrrc .. | .csrrwi .. | .csrrsi .. | .csrrci .. | .ecall | .ebreak | .sret | .mret
  | .wfi | .sfenceVma .. | .lb .. | .lh .. | .lw .. | .lbu .. | .lhu .. | .sb .. | .sh .. | .sw .. | .jal ..
  | .jalr .. | .beq .. | .bne .. | .blt .. | .bge .. | .bltu .. | .bgeu .. | .addiw .. | .slliw .. | .srliw ..
  | .sraiw .. | .addw .. | .subw .. | .sllw .. | .srlw .. | .sraw .. | .lwu .. | .ld .. | .sd .. | .fmaddS ..
  | .fmsubS .. | .fnmsubS .. | .fnmaddS .. | .faddS .. | .fsubS .. | .fmulS .. | .fdivS .. | .fsqrtS .. | .fsgnjS ..
  | .fsgnjnS .. | .fsgnjxS .. | .fminS .. | .fmaxS .. | .fcvtWS .. | .fcvtWuS .. | .fmvXW .. | .feqS .. | .fltS ..
  | .fleS .. | .fclassS .. | .fcvtSW .. | .fcvtSWu .. | .fmvWX .. | .flw .. | .fsw .. | .fcvtLS .. | .fcvtLuS ..
  | .fcvtSL .. | .fcvtSLu .. | .fmaddD .. | .fmsubD .. | .fnmsubD .. | .fnmaddD .. | .faddD .. | .fsubD ..
  | .fmulD .. | .fdivD .. | .fsqrtD .. | .fsgnjD .. | .fsgnjnD .. | .fsgnjxD .. | .fminD .. | .fmaxD .. | .fcvtSD ..
  | .fcvtDS .. | .feqD .. | .fltD .. | .fleD .. | .fclassD .. | .fcvtWD .. | .fcvtWuD .. | .fcvtDW .. | .fcvtDWu ..
  | .fld .. | .fsd .. | .fcvtLD .. | .fcvtLuD .. | .fmvXD .. | .fcvtDL .. | .fcvtDLu .. | .fmvDX .. | .fmaddH ..
  | .fmsubH .. | .fnmsubH .. | .fnmaddH .. | .faddH .. | .fsubH .. | .fmulH .. | .fdivH .. | .fsqrtH .. | .fsgnjH ..
  | .fsgnjnH .. | .fsgnjxH .. | .fminH .. | .fmaxH .. | .fcvtSH .. | .fcvtHS .. | .fcvtDH .. | .fcvtHD ..
  | .fcvtQH .. | .fcvtHQ .. | .feqH .. | .fltH .. | .fleH .. | .fclassH .. | .fcvtWH .. | .fcvtWuH .. | .fmvXH ..
  | .fcvtHW .. | .fcvtHWu .. | .fmvHX .. | .flh .. | .fsh .. | .fcvtLH .. | .fcvtLuH .. | .fcvtHL .. | .fcvtHLu ..
  | .cFld .. | .cLw .. | .cFlw .. | .cLd .. | .cFsd .. | .cSw .. | .cFsw .. | .cSd .. | .cNop .. | .cJal .. | .cLi ..
  | .cAndi .. | .cSub .. | .cXor .. | .cOr .. | .cAnd .. | .cSubw .. | .cAddw .. | .cJ .. | .cBeqz .. | .cBnez ..
  | .cFldsp .. | .cFlwsp .. | .cEbreak | .cFsdsp .. | .cSwsp .. | .cFswsp .. | .cSdsp .. | .cLbu .. | .cLhu ..
  | .cLh .. | .cSb .. | .cSh .. | .cZextB .. | .cSextB .. | .cZextH .. | .cSextH .. | .cZextW .. | .cNot ..
  | .cMul .. | .cmMva01s .. | .mul .. | .mulh .. | .mulhsu .. | .mulhu .. | .div .. | .divu .. | .rem .. | .remu ..
  | .mulw .. | .divw .. | .divuw .. | .remw .. | .remuw .. | .lrW .. | .scW .. | .amoswapW .. | .amoaddW ..
  | .amoxorW .. | .amoandW .. | .amoorW .. | .amominW .. | .amomaxW .. | .amominuW .. | .amomaxuW .. | .lrD ..
  | .scD .. | .amoswapD .. | .amoaddD .. | .amoxorD .. | .amoandD .. | .amoorD .. | .amominD .. | .amomaxD ..
  | .amominuD .. | .amomaxuD .. | .addUw .. | .sh1add .. | .sh1addUw .. | .sh2add .. | .sh2addUw .. | .sh3add ..
  | .sh3addUw .. | .slliUw .. | .andn .. | .orn .. | .xnor .. | .clz .. | .clzw .. | .ctz .. | .ctzw .. | .cpop ..
  | .cpopw .. | .max .. | .maxu .. | .min .. | .minu .. | .sextB .. | .sextH .. | .zextHRv32 .. | .zextHRv64 ..
  | .rol .. | .rolw .. | .ror .. | .roriw .. | .rorw .. | .orcB .. | .rev8Rv32 .. | .rev8Rv64 .. | .clmul ..
  | .clmulh .. | .clmulr .. | .bclr .. | .bext .. | .binv .. | .bset .. => true

/-- A well-formed instruction of a machine: it exists there and its fields are not a reserved code point. The decoder answers
well-formed instructions only. -/
def Instr.wf (xlen : Xlen) (ext : Ext) (i : Instr) : Bool :=
  i.availability.on xlen ext && i.fieldsOk xlen

end Sys2Proof
end

