-- ==== Sys2Proof/Decode.lean ====
section
/-! DEFINITION. The decoder (30_encoding.md R101, R122): the rows of spec/opcode_table.json as masks and patterns, total on any
bytes, rejecting by name; and after it the encoder, written from the same table. `noncomputable` says that Lean makes no compiled
code for a definition (its runtime cannot build the 303 constructors, log 10); the kernel evaluates all of them. -/

namespace Sys2Proof

/-- A row of the table for 32-bit words: its fixed bits, and how the instruction's fields are read from a word. -/
structure Row32 where
  mask : BitVec 32
  pattern : BitVec 32
  build : BitVec 32 → Instr

/-- A row of the table for 16-bit words. -/
structure Row16 where
  mask : BitVec 16
  pattern : BitVec 16
  build : BitVec 16 → Instr

/-- Rows of files 40 and 41: lui to sltu. -/
def rows32Base1 : List Row32 := [
  ⟨0x0000007f#32, 0x00000037#32, fun w => .lui (w.extractLsb' 7 5) (w.extractLsb' 12 20)⟩,
  ⟨0x0000007f#32, 0x00000017#32, fun w => .auipc (w.extractLsb' 7 5) (w.extractLsb' 12 20)⟩,
  ⟨0x0000707f#32, 0x00000013#32, fun w => .addi (w.extractLsb' 7 5) (w.extractLsb' 15 5) (w.extractLsb' 20 12)⟩,
  ⟨0x0000707f#32, 0x00002013#32, fun w => .slti (w.extractLsb' 7 5) (w.extractLsb' 15 5) (w.extractLsb' 20 12)⟩,
  ⟨0x0000707f#32, 0x00003013#32, fun w => .sltiu (w.extractLsb' 7 5) (w.extractLsb' 15 5) (w.extractLsb' 20 12)⟩,
  ⟨0x0000707f#32, 0x00004013#32, fun w => .xori (w.extractLsb' 7 5) (w.extractLsb' 15 5) (w.extractLsb' 20 12)⟩,
  ⟨0x0000707f#32, 0x00006013#32, fun w => .ori (w.extractLsb' 7 5) (w.extractLsb' 15 5) (w.extractLsb' 20 12)⟩,
  ⟨0x0000707f#32, 0x00007013#32, fun w => .andi (w.extractLsb' 7 5) (w.extractLsb' 15 5) (w.extractLsb' 20 12)⟩,
  ⟨0xfc00707f#32, 0x00001013#32, fun w => .slli (w.extractLsb' 7 5) (w.extractLsb' 15 5) (w.extractLsb' 20 6)⟩,
  ⟨0xfc00707f#32, 0x00005013#32, fun w => .srli (w.extractLsb' 7 5) (w.extractLsb' 15 5) (w.extractLsb' 20 6)⟩,
  ⟨0xfc00707f#32, 0x40005013#32, fun w => .srai (w.extractLsb' 7 5) (w.extractLsb' 15 5) (w.extractLsb' 20 6)⟩,
  ⟨0xfe00707f#32, 0x00000033#32, fun w => .add (w.extractLsb' 7 5) (w.extractLsb' 15 5) (w.extractLsb' 20 5)⟩,
  ⟨0xfe00707f#32, 0x40000033#32, fun w => .sub (w.extractLsb' 7 5) (w.extractLsb' 15 5) (w.extractLsb' 20 5)⟩,
  ⟨0xfe00707f#32, 0x00001033#32, fun w => .sll (w.extractLsb' 7 5) (w.extractLsb' 15 5) (w.extractLsb' 20 5)⟩,
  ⟨0xfe00707f#32, 0x00002033#32, fun w => .slt (w.extractLsb' 7 5) (w.extractLsb' 15 5) (w.extractLsb' 20 5)⟩,
  ⟨0xfe00707f#32, 0x00003033#32, fun w => .sltu (w.extractLsb' 7 5) (w.extractLsb' 15 5) (w.extractLsb' 20 5)⟩]

/-- Rows of files 40 and 41: xor to sret. -/
def rows32Base2 : List Row32 := [
  ⟨0xfe00707f#32, 0x00004033#32, fun w => .xor (w.extractLsb' 7 5) (w.extractLsb' 15 5) (w.extractLsb' 20 5)⟩,
  ⟨0xfe00707f#32, 0x00005033#32, fun w => .srl (w.extractLsb' 7 5) (w.extractLsb' 15 5) (w.extractLsb' 20 5)⟩,
  ⟨0xfe00707f#32, 0x40005033#32, fun w => .sra (w.extractLsb' 7 5) (w.extractLsb' 15 5) (w.extractLsb' 20 5)⟩,
  ⟨0xfe00707f#32, 0x00006033#32, fun w => .or (w.extractLsb' 7 5) (w.extractLsb' 15 5) (w.extractLsb' 20 5)⟩,
  ⟨0xfe00707f#32, 0x00007033#32, fun w => .and (w.extractLsb' 7 5) (w.extractLsb' 15 5) (w.extractLsb' 20 5)⟩,
  ⟨0x0000707f#32, 0x0000000f#32, fun w =>
    .fence (w.extractLsb' 7 5) (w.extractLsb' 15 5) (w.extractLsb' 28 4) (w.extractLsb' 24 4) (w.extractLsb' 20 4)⟩,
  ⟨0x0000707f#32, 0x0000100f#32, fun w => .fenceI (w.extractLsb' 7 5) (w.extractLsb' 15 5) (w.extractLsb' 20 12)⟩,
  ⟨0x0000707f#32, 0x00001073#32, fun w => .csrrw (w.extractLsb' 7 5) (w.extractLsb' 15 5) (w.extractLsb' 20 12)⟩,
  ⟨0x0000707f#32, 0x00002073#32, fun w => .csrrs (w.extractLsb' 7 5) (w.extractLsb' 15 5) (w.extractLsb' 20 12)⟩,
  ⟨0x0000707f#32, 0x00003073#32, fun w => .csrrc (w.extractLsb' 7 5) (w.extractLsb' 15 5) (w.extractLsb' 20 12)⟩,
  ⟨0x0000707f#32, 0x00005073#32, fun w => .csrrwi (w.extractLsb' 7 5) (w.extractLsb' 20 12) (w.extractLsb' 15 5)⟩,
  ⟨0x0000707f#32, 0x00006073#32, fun w => .csrrsi (w.extractLsb' 7 5) (w.extractLsb' 20 12) (w.extractLsb' 15 5)⟩,
  ⟨0x0000707f#32, 0x00007073#32, fun w => .csrrci (w.extractLsb' 7 5) (w.extractLsb' 20 12) (w.extractLsb' 15 5)⟩,
  ⟨0xffffffff#32, 0x00000073#32, fun _ => .ecall⟩,
  ⟨0xffffffff#32, 0x00100073#32, fun _ => .ebreak⟩,
  ⟨0xffffffff#32, 0x10200073#32, fun _ => .sret⟩]

/-- Rows of files 40 and 41: mret to blt. -/
def rows32Base3 : List Row32 := [
  ⟨0xffffffff#32, 0x30200073#32, fun _ => .mret⟩,
  ⟨0xffffffff#32, 0x10500073#32, fun _ => .wfi⟩,
  ⟨0xfe007fff#32, 0x12000073#32, fun w => .sfenceVma (w.extractLsb' 15 5) (w.extractLsb' 20 5)⟩,
  ⟨0x0000707f#32, 0x00000003#32, fun w => .lb (w.extractLsb' 7 5) (w.extractLsb' 15 5) (w.extractLsb' 20 12)⟩,
  ⟨0x0000707f#32, 0x00001003#32, fun w => .lh (w.extractLsb' 7 5) (w.extractLsb' 15 5) (w.extractLsb' 20 12)⟩,
  ⟨0x0000707f#32, 0x00002003#32, fun w => .lw (w.extractLsb' 7 5) (w.extractLsb' 15 5) (w.extractLsb' 20 12)⟩,
  ⟨0x0000707f#32, 0x00004003#32, fun w => .lbu (w.extractLsb' 7 5) (w.extractLsb' 15 5) (w.extractLsb' 20 12)⟩,
  ⟨0x0000707f#32, 0x00005003#32, fun w => .lhu (w.extractLsb' 7 5) (w.extractLsb' 15 5) (w.extractLsb' 20 12)⟩,
  ⟨0x0000707f#32, 0x00000023#32, fun w =>
    .sb (w.extractLsb' 15 5) (w.extractLsb' 20 5) (w.extractLsb' 25 7 ++ w.extractLsb' 7 5)⟩,
  ⟨0x0000707f#32, 0x00001023#32, fun w =>
    .sh (w.extractLsb' 15 5) (w.extractLsb' 20 5) (w.extractLsb' 25 7 ++ w.extractLsb' 7 5)⟩,
  ⟨0x0000707f#32, 0x00002023#32, fun w =>
    .sw (w.extractLsb' 15 5) (w.extractLsb' 20 5) (w.extractLsb' 25 7 ++ w.extractLsb' 7 5)⟩,
  ⟨0x0000007f#32, 0x0000006f#32, fun w =>
    .jal (w.extractLsb' 7 5) (w.extractLsb' 31 1 ++ w.extractLsb' 12 8 ++ w.extractLsb' 20 1 ++ w.extractLsb' 21 10)⟩,
  ⟨0x0000707f#32, 0x00000067#32, fun w => .jalr (w.extractLsb' 7 5) (w.extractLsb' 15 5) (w.extractLsb' 20 12)⟩,
  ⟨0x0000707f#32, 0x00000063#32, fun w =>
    .beq (w.extractLsb' 15 5) (w.extractLsb' 20 5) (w.extractLsb' 31 1 ++ w.extractLsb' 7 1 ++ w.extractLsb' 25 6 ++ w.extractLsb' 8 4)⟩,
  ⟨0x0000707f#32, 0x00001063#32, fun w =>
    .bne (w.extractLsb' 15 5) (w.extractLsb' 20 5) (w.extractLsb' 31 1 ++ w.extractLsb' 7 1 ++ w.extractLsb' 25 6 ++ w.extractLsb' 8 4)⟩,
  ⟨0x0000707f#32, 0x00004063#32, fun w =>
    .blt (w.extractLsb' 15 5) (w.extractLsb' 20 5) (w.extractLsb' 31 1 ++ w.extractLsb' 7 1 ++ w.extractLsb' 25 6 ++ w.extractLsb' 8 4)⟩]

/-- Rows of files 40 and 41: bge to sd. -/
def rows32Base4 : List Row32 := [
  ⟨0x0000707f#32, 0x00005063#32, fun w =>
    .bge (w.extractLsb' 15 5) (w.extractLsb' 20 5) (w.extractLsb' 31 1 ++ w.extractLsb' 7 1 ++ w.extractLsb' 25 6 ++ w.extractLsb' 8 4)⟩,
  ⟨0x0000707f#32, 0x00006063#32, fun w =>
    .bltu (w.extractLsb' 15 5) (w.extractLsb' 20 5) (w.extractLsb' 31 1 ++ w.extractLsb' 7 1 ++ w.extractLsb' 25 6 ++ w.extractLsb' 8 4)⟩,
  ⟨0x0000707f#32, 0x00007063#32, fun w =>
    .bgeu (w.extractLsb' 15 5) (w.extractLsb' 20 5) (w.extractLsb' 31 1 ++ w.extractLsb' 7 1 ++ w.extractLsb' 25 6 ++ w.extractLsb' 8 4)⟩,
  ⟨0x0000707f#32, 0x0000001b#32, fun w => .addiw (w.extractLsb' 7 5) (w.extractLsb' 15 5) (w.extractLsb' 20 12)⟩,
  ⟨0xfe00707f#32, 0x0000101b#32, fun w => .slliw (w.extractLsb' 7 5) (w.extractLsb' 15 5) (w.extractLsb' 20 5)⟩,
  ⟨0xfe00707f#32, 0x0000501b#32, fun w => .srliw (w.extractLsb' 7 5) (w.extractLsb' 15 5) (w.extractLsb' 20 5)⟩,
  ⟨0xfe00707f#32, 0x4000501b#32, fun w => .sraiw (w.extractLsb' 7 5) (w.extractLsb' 15 5) (w.extractLsb' 20 5)⟩,
  ⟨0xfe00707f#32, 0x0000003b#32, fun w => .addw (w.extractLsb' 7 5) (w.extractLsb' 15 5) (w.extractLsb' 20 5)⟩,
  ⟨0xfe00707f#32, 0x4000003b#32, fun w => .subw (w.extractLsb' 7 5) (w.extractLsb' 15 5) (w.extractLsb' 20 5)⟩,
  ⟨0xfe00707f#32, 0x0000103b#32, fun w => .sllw (w.extractLsb' 7 5) (w.extractLsb' 15 5) (w.extractLsb' 20 5)⟩,
  ⟨0xfe00707f#32, 0x0000503b#32, fun w => .srlw (w.extractLsb' 7 5) (w.extractLsb' 15 5) (w.extractLsb' 20 5)⟩,
  ⟨0xfe00707f#32, 0x4000503b#32, fun w => .sraw (w.extractLsb' 7 5) (w.extractLsb' 15 5) (w.extractLsb' 20 5)⟩,
  ⟨0x0000707f#32, 0x00006003#32, fun w => .lwu (w.extractLsb' 7 5) (w.extractLsb' 15 5) (w.extractLsb' 20 12)⟩,
  ⟨0x0000707f#32, 0x00003003#32, fun w => .ld (w.extractLsb' 7 5) (w.extractLsb' 15 5) (w.extractLsb' 20 12)⟩,
  ⟨0x0000707f#32, 0x00003023#32, fun w =>
    .sd (w.extractLsb' 15 5) (w.extractLsb' 20 5) (w.extractLsb' 25 7 ++ w.extractLsb' 7 5)⟩]

/-- Rows of file 42: mul to remuw. -/
def rows32M1 : List Row32 := [
  ⟨0xfe00707f#32, 0x02000033#32, fun w => .mul (w.extractLsb' 7 5) (w.extractLsb' 15 5) (w.extractLsb' 20 5)⟩,
  ⟨0xfe00707f#32, 0x02001033#32, fun w => .mulh (w.extractLsb' 7 5) (w.extractLsb' 15 5) (w.extractLsb' 20 5)⟩,
  ⟨0xfe00707f#32, 0x02002033#32, fun w => .mulhsu (w.extractLsb' 7 5) (w.extractLsb' 15 5) (w.extractLsb' 20 5)⟩,
  ⟨0xfe00707f#32, 0x02003033#32, fun w => .mulhu (w.extractLsb' 7 5) (w.extractLsb' 15 5) (w.extractLsb' 20 5)⟩,
  ⟨0xfe00707f#32, 0x02004033#32, fun w => .div (w.extractLsb' 7 5) (w.extractLsb' 15 5) (w.extractLsb' 20 5)⟩,
  ⟨0xfe00707f#32, 0x02005033#32, fun w => .divu (w.extractLsb' 7 5) (w.extractLsb' 15 5) (w.extractLsb' 20 5)⟩,
  ⟨0xfe00707f#32, 0x02006033#32, fun w => .rem (w.extractLsb' 7 5) (w.extractLsb' 15 5) (w.extractLsb' 20 5)⟩,
  ⟨0xfe00707f#32, 0x02007033#32, fun w => .remu (w.extractLsb' 7 5) (w.extractLsb' 15 5) (w.extractLsb' 20 5)⟩,
  ⟨0xfe00707f#32, 0x0200003b#32, fun w => .mulw (w.extractLsb' 7 5) (w.extractLsb' 15 5) (w.extractLsb' 20 5)⟩,
  ⟨0xfe00707f#32, 0x0200403b#32, fun w => .divw (w.extractLsb' 7 5) (w.extractLsb' 15 5) (w.extractLsb' 20 5)⟩,
  ⟨0xfe00707f#32, 0x0200503b#32, fun w => .divuw (w.extractLsb' 7 5) (w.extractLsb' 15 5) (w.extractLsb' 20 5)⟩,
  ⟨0xfe00707f#32, 0x0200603b#32, fun w => .remw (w.extractLsb' 7 5) (w.extractLsb' 15 5) (w.extractLsb' 20 5)⟩,
  ⟨0xfe00707f#32, 0x0200703b#32, fun w => .remuw (w.extractLsb' 7 5) (w.extractLsb' 15 5) (w.extractLsb' 20 5)⟩]

/-- Rows of file 43: lr.w to amoxor.d. -/
noncomputable def rows32A1 : List Row32 := [
  ⟨0xf9f0707f#32, 0x1000202f#32, fun w =>
    .lrW (w.extractLsb' 7 5) (w.extractLsb' 15 5) (w.extractLsb' 26 1) (w.extractLsb' 25 1)⟩,
  ⟨0xf800707f#32, 0x1800202f#32, fun w =>
    .scW (w.extractLsb' 7 5) (w.extractLsb' 15 5) (w.extractLsb' 20 5) (w.extractLsb' 26 1) (w.extractLsb' 25 1)⟩,
  ⟨0xf800707f#32, 0x0800202f#32, fun w =>
    .amoswapW (w.extractLsb' 7 5) (w.extractLsb' 15 5) (w.extractLsb' 20 5) (w.extractLsb' 26 1) (w.extractLsb' 25 1)⟩,
  ⟨0xf800707f#32, 0x0000202f#32, fun w =>
    .amoaddW (w.extractLsb' 7 5) (w.extractLsb' 15 5) (w.extractLsb' 20 5) (w.extractLsb' 26 1) (w.extractLsb' 25 1)⟩,
  ⟨0xf800707f#32, 0x2000202f#32, fun w =>
    .amoxorW (w.extractLsb' 7 5) (w.extractLsb' 15 5) (w.extractLsb' 20 5) (w.extractLsb' 26 1) (w.extractLsb' 25 1)⟩,
  ⟨0xf800707f#32, 0x6000202f#32, fun w =>
    .amoandW (w.extractLsb' 7 5) (w.extractLsb' 15 5) (w.extractLsb' 20 5) (w.extractLsb' 26 1) (w.extractLsb' 25 1)⟩,
  ⟨0xf800707f#32, 0x4000202f#32, fun w =>
    .amoorW (w.extractLsb' 7 5) (w.extractLsb' 15 5) (w.extractLsb' 20 5) (w.extractLsb' 26 1) (w.extractLsb' 25 1)⟩,
  ⟨0xf800707f#32, 0x8000202f#32, fun w =>
    .amominW (w.extractLsb' 7 5) (w.extractLsb' 15 5) (w.extractLsb' 20 5) (w.extractLsb' 26 1) (w.extractLsb' 25 1)⟩,
  ⟨0xf800707f#32, 0xa000202f#32, fun w =>
    .amomaxW (w.extractLsb' 7 5) (w.extractLsb' 15 5) (w.extractLsb' 20 5) (w.extractLsb' 26 1) (w.extractLsb' 25 1)⟩,
  ⟨0xf800707f#32, 0xc000202f#32, fun w =>
    .amominuW (w.extractLsb' 7 5) (w.extractLsb' 15 5) (w.extractLsb' 20 5) (w.extractLsb' 26 1) (w.extractLsb' 25 1)⟩,
  ⟨0xf800707f#32, 0xe000202f#32, fun w =>
    .amomaxuW (w.extractLsb' 7 5) (w.extractLsb' 15 5) (w.extractLsb' 20 5) (w.extractLsb' 26 1) (w.extractLsb' 25 1)⟩,
  ⟨0xf9f0707f#32, 0x1000302f#32, fun w =>
    .lrD (w.extractLsb' 7 5) (w.extractLsb' 15 5) (w.extractLsb' 26 1) (w.extractLsb' 25 1)⟩,
  ⟨0xf800707f#32, 0x1800302f#32, fun w =>
    .scD (w.extractLsb' 7 5) (w.extractLsb' 15 5) (w.extractLsb' 20 5) (w.extractLsb' 26 1) (w.extractLsb' 25 1)⟩,
  ⟨0xf800707f#32, 0x0800302f#32, fun w =>
    .amoswapD (w.extractLsb' 7 5) (w.extractLsb' 15 5) (w.extractLsb' 20 5) (w.extractLsb' 26 1) (w.extractLsb' 25 1)⟩,
  ⟨0xf800707f#32, 0x0000302f#32, fun w =>
    .amoaddD (w.extractLsb' 7 5) (w.extractLsb' 15 5) (w.extractLsb' 20 5) (w.extractLsb' 26 1) (w.extractLsb' 25 1)⟩,
  ⟨0xf800707f#32, 0x2000302f#32, fun w =>
    .amoxorD (w.extractLsb' 7 5) (w.extractLsb' 15 5) (w.extractLsb' 20 5) (w.extractLsb' 26 1) (w.extractLsb' 25 1)⟩]

/-- Rows of file 43: amoand.d to amomaxu.d. -/
noncomputable def rows32A2 : List Row32 := [
  ⟨0xf800707f#32, 0x6000302f#32, fun w =>
    .amoandD (w.extractLsb' 7 5) (w.extractLsb' 15 5) (w.extractLsb' 20 5) (w.extractLsb' 26 1) (w.extractLsb' 25 1)⟩,
  ⟨0xf800707f#32, 0x4000302f#32, fun w =>
    .amoorD (w.extractLsb' 7 5) (w.extractLsb' 15 5) (w.extractLsb' 20 5) (w.extractLsb' 26 1) (w.extractLsb' 25 1)⟩,
  ⟨0xf800707f#32, 0x8000302f#32, fun w =>
    .amominD (w.extractLsb' 7 5) (w.extractLsb' 15 5) (w.extractLsb' 20 5) (w.extractLsb' 26 1) (w.extractLsb' 25 1)⟩,
  ⟨0xf800707f#32, 0xa000302f#32, fun w =>
    .amomaxD (w.extractLsb' 7 5) (w.extractLsb' 15 5) (w.extractLsb' 20 5) (w.extractLsb' 26 1) (w.extractLsb' 25 1)⟩,
  ⟨0xf800707f#32, 0xc000302f#32, fun w =>
    .amominuD (w.extractLsb' 7 5) (w.extractLsb' 15 5) (w.extractLsb' 20 5) (w.extractLsb' 26 1) (w.extractLsb' 25 1)⟩,
  ⟨0xf800707f#32, 0xe000302f#32, fun w =>
    .amomaxuD (w.extractLsb' 7 5) (w.extractLsb' 15 5) (w.extractLsb' 20 5) (w.extractLsb' 26 1) (w.extractLsb' 25 1)⟩]

/-- Rows of file 44: fmadd.s to fcvt.wu.s. -/
def rows32F1 : List Row32 := [
  ⟨0x0600007f#32, 0x00000043#32, fun w =>
    .fmaddS (w.extractLsb' 7 5) (w.extractLsb' 15 5) (w.extractLsb' 20 5) (w.extractLsb' 27 5) (w.extractLsb' 12 3)⟩,
  ⟨0x0600007f#32, 0x00000047#32, fun w =>
    .fmsubS (w.extractLsb' 7 5) (w.extractLsb' 15 5) (w.extractLsb' 20 5) (w.extractLsb' 27 5) (w.extractLsb' 12 3)⟩,
  ⟨0x0600007f#32, 0x0000004b#32, fun w =>
    .fnmsubS (w.extractLsb' 7 5) (w.extractLsb' 15 5) (w.extractLsb' 20 5) (w.extractLsb' 27 5) (w.extractLsb' 12 3)⟩,
  ⟨0x0600007f#32, 0x0000004f#32, fun w =>
    .fnmaddS (w.extractLsb' 7 5) (w.extractLsb' 15 5) (w.extractLsb' 20 5) (w.extractLsb' 27 5) (w.extractLsb' 12 3)⟩,
  ⟨0xfe00007f#32, 0x00000053#32, fun w =>
    .faddS (w.extractLsb' 7 5) (w.extractLsb' 15 5) (w.extractLsb' 20 5) (w.extractLsb' 12 3)⟩,
  ⟨0xfe00007f#32, 0x08000053#32, fun w =>
    .fsubS (w.extractLsb' 7 5) (w.extractLsb' 15 5) (w.extractLsb' 20 5) (w.extractLsb' 12 3)⟩,
  ⟨0xfe00007f#32, 0x10000053#32, fun w =>
    .fmulS (w.extractLsb' 7 5) (w.extractLsb' 15 5) (w.extractLsb' 20 5) (w.extractLsb' 12 3)⟩,
  ⟨0xfe00007f#32, 0x18000053#32, fun w =>
    .fdivS (w.extractLsb' 7 5) (w.extractLsb' 15 5) (w.extractLsb' 20 5) (w.extractLsb' 12 3)⟩,
  ⟨0xfff0007f#32, 0x58000053#32, fun w => .fsqrtS (w.extractLsb' 7 5) (w.extractLsb' 15 5) (w.extractLsb' 12 3)⟩,
  ⟨0xfe00707f#32, 0x20000053#32, fun w => .fsgnjS (w.extractLsb' 7 5) (w.extractLsb' 15 5) (w.extractLsb' 20 5)⟩,
  ⟨0xfe00707f#32, 0x20001053#32, fun w => .fsgnjnS (w.extractLsb' 7 5) (w.extractLsb' 15 5) (w.extractLsb' 20 5)⟩,
  ⟨0xfe00707f#32, 0x20002053#32, fun w => .fsgnjxS (w.extractLsb' 7 5) (w.extractLsb' 15 5) (w.extractLsb' 20 5)⟩,
  ⟨0xfe00707f#32, 0x28000053#32, fun w => .fminS (w.extractLsb' 7 5) (w.extractLsb' 15 5) (w.extractLsb' 20 5)⟩,
  ⟨0xfe00707f#32, 0x28001053#32, fun w => .fmaxS (w.extractLsb' 7 5) (w.extractLsb' 15 5) (w.extractLsb' 20 5)⟩,
  ⟨0xfff0007f#32, 0xc0000053#32, fun w => .fcvtWS (w.extractLsb' 7 5) (w.extractLsb' 15 5) (w.extractLsb' 12 3)⟩,
  ⟨0xfff0007f#32, 0xc0100053#32, fun w => .fcvtWuS (w.extractLsb' 7 5) (w.extractLsb' 15 5) (w.extractLsb' 12 3)⟩]

/-- Rows of file 44: fmv.x.w to fcvt.s.lu. -/
def rows32F2 : List Row32 := [
  ⟨0xfff0707f#32, 0xe0000053#32, fun w => .fmvXW (w.extractLsb' 7 5) (w.extractLsb' 15 5)⟩,
  ⟨0xfe00707f#32, 0xa0002053#32, fun w => .feqS (w.extractLsb' 7 5) (w.extractLsb' 15 5) (w.extractLsb' 20 5)⟩,
  ⟨0xfe00707f#32, 0xa0001053#32, fun w => .fltS (w.extractLsb' 7 5) (w.extractLsb' 15 5) (w.extractLsb' 20 5)⟩,
  ⟨0xfe00707f#32, 0xa0000053#32, fun w => .fleS (w.extractLsb' 7 5) (w.extractLsb' 15 5) (w.extractLsb' 20 5)⟩,
  ⟨0xfff0707f#32, 0xe0001053#32, fun w => .fclassS (w.extractLsb' 7 5) (w.extractLsb' 15 5)⟩,
  ⟨0xfff0007f#32, 0xd0000053#32, fun w => .fcvtSW (w.extractLsb' 7 5) (w.extractLsb' 15 5) (w.extractLsb' 12 3)⟩,
  ⟨0xfff0007f#32, 0xd0100053#32, fun w => .fcvtSWu (w.extractLsb' 7 5) (w.extractLsb' 15 5) (w.extractLsb' 12 3)⟩,
  ⟨0xfff0707f#32, 0xf0000053#32, fun w => .fmvWX (w.extractLsb' 7 5) (w.extractLsb' 15 5)⟩,
  ⟨0x0000707f#32, 0x00002007#32, fun w => .flw (w.extractLsb' 7 5) (w.extractLsb' 15 5) (w.extractLsb' 20 12)⟩,
  ⟨0x0000707f#32, 0x00002027#32, fun w =>
    .fsw (w.extractLsb' 15 5) (w.extractLsb' 20 5) (w.extractLsb' 25 7 ++ w.extractLsb' 7 5)⟩,
  ⟨0xfff0007f#32, 0xc0200053#32, fun w => .fcvtLS (w.extractLsb' 7 5) (w.extractLsb' 15 5) (w.extractLsb' 12 3)⟩,
  ⟨0xfff0007f#32, 0xc0300053#32, fun w => .fcvtLuS (w.extractLsb' 7 5) (w.extractLsb' 15 5) (w.extractLsb' 12 3)⟩,
  ⟨0xfff0007f#32, 0xd0200053#32, fun w => .fcvtSL (w.extractLsb' 7 5) (w.extractLsb' 15 5) (w.extractLsb' 12 3)⟩,
  ⟨0xfff0007f#32, 0xd0300053#32, fun w => .fcvtSLu (w.extractLsb' 7 5) (w.extractLsb' 15 5) (w.extractLsb' 12 3)⟩]

/-- Rows of file 45: fmadd.d to fcvt.d.s. -/
def rows32D1 : List Row32 := [
  ⟨0x0600007f#32, 0x02000043#32, fun w =>
    .fmaddD (w.extractLsb' 7 5) (w.extractLsb' 15 5) (w.extractLsb' 20 5) (w.extractLsb' 27 5) (w.extractLsb' 12 3)⟩,
  ⟨0x0600007f#32, 0x02000047#32, fun w =>
    .fmsubD (w.extractLsb' 7 5) (w.extractLsb' 15 5) (w.extractLsb' 20 5) (w.extractLsb' 27 5) (w.extractLsb' 12 3)⟩,
  ⟨0x0600007f#32, 0x0200004b#32, fun w =>
    .fnmsubD (w.extractLsb' 7 5) (w.extractLsb' 15 5) (w.extractLsb' 20 5) (w.extractLsb' 27 5) (w.extractLsb' 12 3)⟩,
  ⟨0x0600007f#32, 0x0200004f#32, fun w =>
    .fnmaddD (w.extractLsb' 7 5) (w.extractLsb' 15 5) (w.extractLsb' 20 5) (w.extractLsb' 27 5) (w.extractLsb' 12 3)⟩,
  ⟨0xfe00007f#32, 0x02000053#32, fun w =>
    .faddD (w.extractLsb' 7 5) (w.extractLsb' 15 5) (w.extractLsb' 20 5) (w.extractLsb' 12 3)⟩,
  ⟨0xfe00007f#32, 0x0a000053#32, fun w =>
    .fsubD (w.extractLsb' 7 5) (w.extractLsb' 15 5) (w.extractLsb' 20 5) (w.extractLsb' 12 3)⟩,
  ⟨0xfe00007f#32, 0x12000053#32, fun w =>
    .fmulD (w.extractLsb' 7 5) (w.extractLsb' 15 5) (w.extractLsb' 20 5) (w.extractLsb' 12 3)⟩,
  ⟨0xfe00007f#32, 0x1a000053#32, fun w =>
    .fdivD (w.extractLsb' 7 5) (w.extractLsb' 15 5) (w.extractLsb' 20 5) (w.extractLsb' 12 3)⟩,
  ⟨0xfff0007f#32, 0x5a000053#32, fun w => .fsqrtD (w.extractLsb' 7 5) (w.extractLsb' 15 5) (w.extractLsb' 12 3)⟩,
  ⟨0xfe00707f#32, 0x22000053#32, fun w => .fsgnjD (w.extractLsb' 7 5) (w.extractLsb' 15 5) (w.extractLsb' 20 5)⟩,
  ⟨0xfe00707f#32, 0x22001053#32, fun w => .fsgnjnD (w.extractLsb' 7 5) (w.extractLsb' 15 5) (w.extractLsb' 20 5)⟩,
  ⟨0xfe00707f#32, 0x22002053#32, fun w => .fsgnjxD (w.extractLsb' 7 5) (w.extractLsb' 15 5) (w.extractLsb' 20 5)⟩,
  ⟨0xfe00707f#32, 0x2a000053#32, fun w => .fminD (w.extractLsb' 7 5) (w.extractLsb' 15 5) (w.extractLsb' 20 5)⟩,
  ⟨0xfe00707f#32, 0x2a001053#32, fun w => .fmaxD (w.extractLsb' 7 5) (w.extractLsb' 15 5) (w.extractLsb' 20 5)⟩,
  ⟨0xfff0007f#32, 0x40100053#32, fun w => .fcvtSD (w.extractLsb' 7 5) (w.extractLsb' 15 5) (w.extractLsb' 12 3)⟩,
  ⟨0xfff0007f#32, 0x42000053#32, fun w => .fcvtDS (w.extractLsb' 7 5) (w.extractLsb' 15 5) (w.extractLsb' 12 3)⟩]

/-- Rows of file 45: feq.d to fmv.d.x. -/
def rows32D2 : List Row32 := [
  ⟨0xfe00707f#32, 0xa2002053#32, fun w => .feqD (w.extractLsb' 7 5) (w.extractLsb' 15 5) (w.extractLsb' 20 5)⟩,
  ⟨0xfe00707f#32, 0xa2001053#32, fun w => .fltD (w.extractLsb' 7 5) (w.extractLsb' 15 5) (w.extractLsb' 20 5)⟩,
  ⟨0xfe00707f#32, 0xa2000053#32, fun w => .fleD (w.extractLsb' 7 5) (w.extractLsb' 15 5) (w.extractLsb' 20 5)⟩,
  ⟨0xfff0707f#32, 0xe2001053#32, fun w => .fclassD (w.extractLsb' 7 5) (w.extractLsb' 15 5)⟩,
  ⟨0xfff0007f#32, 0xc2000053#32, fun w => .fcvtWD (w.extractLsb' 7 5) (w.extractLsb' 15 5) (w.extractLsb' 12 3)⟩,
  ⟨0xfff0007f#32, 0xc2100053#32, fun w => .fcvtWuD (w.extractLsb' 7 5) (w.extractLsb' 15 5) (w.extractLsb' 12 3)⟩,
  ⟨0xfff0007f#32, 0xd2000053#32, fun w => .fcvtDW (w.extractLsb' 7 5) (w.extractLsb' 15 5) (w.extractLsb' 12 3)⟩,
  ⟨0xfff0007f#32, 0xd2100053#32, fun w => .fcvtDWu (w.extractLsb' 7 5) (w.extractLsb' 15 5) (w.extractLsb' 12 3)⟩,
  ⟨0x0000707f#32, 0x00003007#32, fun w => .fld (w.extractLsb' 7 5) (w.extractLsb' 15 5) (w.extractLsb' 20 12)⟩,
  ⟨0x0000707f#32, 0x00003027#32, fun w =>
    .fsd (w.extractLsb' 15 5) (w.extractLsb' 20 5) (w.extractLsb' 25 7 ++ w.extractLsb' 7 5)⟩,
  ⟨0xfff0007f#32, 0xc2200053#32, fun w => .fcvtLD (w.extractLsb' 7 5) (w.extractLsb' 15 5) (w.extractLsb' 12 3)⟩,
  ⟨0xfff0007f#32, 0xc2300053#32, fun w => .fcvtLuD (w.extractLsb' 7 5) (w.extractLsb' 15 5) (w.extractLsb' 12 3)⟩,
  ⟨0xfff0707f#32, 0xe2000053#32, fun w => .fmvXD (w.extractLsb' 7 5) (w.extractLsb' 15 5)⟩,
  ⟨0xfff0007f#32, 0xd2200053#32, fun w => .fcvtDL (w.extractLsb' 7 5) (w.extractLsb' 15 5) (w.extractLsb' 12 3)⟩,
  ⟨0xfff0007f#32, 0xd2300053#32, fun w => .fcvtDLu (w.extractLsb' 7 5) (w.extractLsb' 15 5) (w.extractLsb' 12 3)⟩,
  ⟨0xfff0707f#32, 0xf2000053#32, fun w => .fmvDX (w.extractLsb' 7 5) (w.extractLsb' 15 5)⟩]

/-- Rows of file 47: add.uw to cpop. -/
noncomputable def rows32B1 : List Row32 := [
  ⟨0xfe00707f#32, 0x0800003b#32, fun w => .addUw (w.extractLsb' 7 5) (w.extractLsb' 15 5) (w.extractLsb' 20 5)⟩,
  ⟨0xfe00707f#32, 0x20002033#32, fun w => .sh1add (w.extractLsb' 7 5) (w.extractLsb' 15 5) (w.extractLsb' 20 5)⟩,
  ⟨0xfe00707f#32, 0x2000203b#32, fun w => .sh1addUw (w.extractLsb' 7 5) (w.extractLsb' 15 5) (w.extractLsb' 20 5)⟩,
  ⟨0xfe00707f#32, 0x20004033#32, fun w => .sh2add (w.extractLsb' 7 5) (w.extractLsb' 15 5) (w.extractLsb' 20 5)⟩,
  ⟨0xfe00707f#32, 0x2000403b#32, fun w => .sh2addUw (w.extractLsb' 7 5) (w.extractLsb' 15 5) (w.extractLsb' 20 5)⟩,
  ⟨0xfe00707f#32, 0x20006033#32, fun w => .sh3add (w.extractLsb' 7 5) (w.extractLsb' 15 5) (w.extractLsb' 20 5)⟩,
  ⟨0xfe00707f#32, 0x2000603b#32, fun w => .sh3addUw (w.extractLsb' 7 5) (w.extractLsb' 15 5) (w.extractLsb' 20 5)⟩,
  ⟨0xfc00707f#32, 0x0800101b#32, fun w => .slliUw (w.extractLsb' 7 5) (w.extractLsb' 15 5) (w.extractLsb' 20 6)⟩,
  ⟨0xfe00707f#32, 0x40007033#32, fun w => .andn (w.extractLsb' 7 5) (w.extractLsb' 15 5) (w.extractLsb' 20 5)⟩,
  ⟨0xfe00707f#32, 0x40006033#32, fun w => .orn (w.extractLsb' 7 5) (w.extractLsb' 15 5) (w.extractLsb' 20 5)⟩,
  ⟨0xfe00707f#32, 0x40004033#32, fun w => .xnor (w.extractLsb' 7 5) (w.extractLsb' 15 5) (w.extractLsb' 20 5)⟩,
  ⟨0xfff0707f#32, 0x60001013#32, fun w => .clz (w.extractLsb' 7 5) (w.extractLsb' 15 5)⟩,
  ⟨0xfff0707f#32, 0x6000101b#32, fun w => .clzw (w.extractLsb' 7 5) (w.extractLsb' 15 5)⟩,
  ⟨0xfff0707f#32, 0x60101013#32, fun w => .ctz (w.extractLsb' 7 5) (w.extractLsb' 15 5)⟩,
  ⟨0xfff0707f#32, 0x6010101b#32, fun w => .ctzw (w.extractLsb' 7 5) (w.extractLsb' 15 5)⟩,
  ⟨0xfff0707f#32, 0x60201013#32, fun w => .cpop (w.extractLsb' 7 5) (w.extractLsb' 15 5)⟩]

/-- Rows of file 47: cpopw to orc.b. -/
noncomputable def rows32B2 : List Row32 := [
  ⟨0xfff0707f#32, 0x6020101b#32, fun w => .cpopw (w.extractLsb' 7 5) (w.extractLsb' 15 5)⟩,
  ⟨0xfe00707f#32, 0x0a006033#32, fun w => .max (w.extractLsb' 7 5) (w.extractLsb' 15 5) (w.extractLsb' 20 5)⟩,
  ⟨0xfe00707f#32, 0x0a007033#32, fun w => .maxu (w.extractLsb' 7 5) (w.extractLsb' 15 5) (w.extractLsb' 20 5)⟩,
  ⟨0xfe00707f#32, 0x0a004033#32, fun w => .min (w.extractLsb' 7 5) (w.extractLsb' 15 5) (w.extractLsb' 20 5)⟩,
  ⟨0xfe00707f#32, 0x0a005033#32, fun w => .minu (w.extractLsb' 7 5) (w.extractLsb' 15 5) (w.extractLsb' 20 5)⟩,
  ⟨0xfff0707f#32, 0x60401013#32, fun w => .sextB (w.extractLsb' 7 5) (w.extractLsb' 15 5)⟩,
  ⟨0xfff0707f#32, 0x60501013#32, fun w => .sextH (w.extractLsb' 7 5) (w.extractLsb' 15 5)⟩,
  ⟨0xfff0707f#32, 0x08004033#32, fun w => .zextHRv32 (w.extractLsb' 7 5) (w.extractLsb' 15 5)⟩,
  ⟨0xfff0707f#32, 0x0800403b#32, fun w => .zextHRv64 (w.extractLsb' 7 5) (w.extractLsb' 15 5)⟩,
  ⟨0xfe00707f#32, 0x60001033#32, fun w => .rol (w.extractLsb' 7 5) (w.extractLsb' 15 5) (w.extractLsb' 20 5)⟩,
  ⟨0xfe00707f#32, 0x6000103b#32, fun w => .rolw (w.extractLsb' 7 5) (w.extractLsb' 15 5) (w.extractLsb' 20 5)⟩,
  ⟨0xfe00707f#32, 0x60005033#32, fun w => .ror (w.extractLsb' 7 5) (w.extractLsb' 15 5) (w.extractLsb' 20 5)⟩,
  ⟨0xfc00707f#32, 0x60005013#32, fun w => .rori (w.extractLsb' 7 5) (w.extractLsb' 15 5) (w.extractLsb' 20 6)⟩,
  ⟨0xfe00707f#32, 0x6000501b#32, fun w => .roriw (w.extractLsb' 7 5) (w.extractLsb' 15 5) (w.extractLsb' 20 5)⟩,
  ⟨0xfe00707f#32, 0x6000503b#32, fun w => .rorw (w.extractLsb' 7 5) (w.extractLsb' 15 5) (w.extractLsb' 20 5)⟩,
  ⟨0xfff0707f#32, 0x28705013#32, fun w => .orcB (w.extractLsb' 7 5) (w.extractLsb' 15 5)⟩]

/-- Rows of file 47: rev8 to bseti. -/
noncomputable def rows32B3 : List Row32 := [
  ⟨0xfff0707f#32, 0x69805013#32, fun w => .rev8Rv32 (w.extractLsb' 7 5) (w.extractLsb' 15 5)⟩,
  ⟨0xfff0707f#32, 0x6b805013#32, fun w => .rev8Rv64 (w.extractLsb' 7 5) (w.extractLsb' 15 5)⟩,
  ⟨0xfe00707f#32, 0x0a001033#32, fun w => .clmul (w.extractLsb' 7 5) (w.extractLsb' 15 5) (w.extractLsb' 20 5)⟩,
  ⟨0xfe00707f#32, 0x0a003033#32, fun w => .clmulh (w.extractLsb' 7 5) (w.extractLsb' 15 5) (w.extractLsb' 20 5)⟩,
  ⟨0xfe00707f#32, 0x0a002033#32, fun w => .clmulr (w.extractLsb' 7 5) (w.extractLsb' 15 5) (w.extractLsb' 20 5)⟩,
  ⟨0xfe00707f#32, 0x48001033#32, fun w => .bclr (w.extractLsb' 7 5) (w.extractLsb' 15 5) (w.extractLsb' 20 5)⟩,
  ⟨0xfc00707f#32, 0x48001013#32, fun w => .bclri (w.extractLsb' 7 5) (w.extractLsb' 15 5) (w.extractLsb' 20 6)⟩,
  ⟨0xfe00707f#32, 0x48005033#32, fun w => .bext (w.extractLsb' 7 5) (w.extractLsb' 15 5) (w.extractLsb' 20 5)⟩,
  ⟨0xfc00707f#32, 0x48005013#32, fun w => .bexti (w.extractLsb' 7 5) (w.extractLsb' 15 5) (w.extractLsb' 20 6)⟩,
  ⟨0xfe00707f#32, 0x68001033#32, fun w => .binv (w.extractLsb' 7 5) (w.extractLsb' 15 5) (w.extractLsb' 20 5)⟩,
  ⟨0xfc00707f#32, 0x68001013#32, fun w => .binvi (w.extractLsb' 7 5) (w.extractLsb' 15 5) (w.extractLsb' 20 6)⟩,
  ⟨0xfe00707f#32, 0x28001033#32, fun w => .bset (w.extractLsb' 7 5) (w.extractLsb' 15 5) (w.extractLsb' 20 5)⟩,
  ⟨0xfc00707f#32, 0x28001013#32, fun w => .bseti (w.extractLsb' 7 5) (w.extractLsb' 15 5) (w.extractLsb' 20 6)⟩]

/-- Rows of file 48: fmadd.h to fcvt.h.s. -/
def rows32Zfh1 : List Row32 := [
  ⟨0x0600007f#32, 0x04000043#32, fun w =>
    .fmaddH (w.extractLsb' 7 5) (w.extractLsb' 15 5) (w.extractLsb' 20 5) (w.extractLsb' 27 5) (w.extractLsb' 12 3)⟩,
  ⟨0x0600007f#32, 0x04000047#32, fun w =>
    .fmsubH (w.extractLsb' 7 5) (w.extractLsb' 15 5) (w.extractLsb' 20 5) (w.extractLsb' 27 5) (w.extractLsb' 12 3)⟩,
  ⟨0x0600007f#32, 0x0400004b#32, fun w =>
    .fnmsubH (w.extractLsb' 7 5) (w.extractLsb' 15 5) (w.extractLsb' 20 5) (w.extractLsb' 27 5) (w.extractLsb' 12 3)⟩,
  ⟨0x0600007f#32, 0x0400004f#32, fun w =>
    .fnmaddH (w.extractLsb' 7 5) (w.extractLsb' 15 5) (w.extractLsb' 20 5) (w.extractLsb' 27 5) (w.extractLsb' 12 3)⟩,
  ⟨0xfe00007f#32, 0x04000053#32, fun w =>
    .faddH (w.extractLsb' 7 5) (w.extractLsb' 15 5) (w.extractLsb' 20 5) (w.extractLsb' 12 3)⟩,
  ⟨0xfe00007f#32, 0x0c000053#32, fun w =>
    .fsubH (w.extractLsb' 7 5) (w.extractLsb' 15 5) (w.extractLsb' 20 5) (w.extractLsb' 12 3)⟩,
  ⟨0xfe00007f#32, 0x14000053#32, fun w =>
    .fmulH (w.extractLsb' 7 5) (w.extractLsb' 15 5) (w.extractLsb' 20 5) (w.extractLsb' 12 3)⟩,
  ⟨0xfe00007f#32, 0x1c000053#32, fun w =>
    .fdivH (w.extractLsb' 7 5) (w.extractLsb' 15 5) (w.extractLsb' 20 5) (w.extractLsb' 12 3)⟩,
  ⟨0xfff0007f#32, 0x5c000053#32, fun w => .fsqrtH (w.extractLsb' 7 5) (w.extractLsb' 15 5) (w.extractLsb' 12 3)⟩,
  ⟨0xfe00707f#32, 0x24000053#32, fun w => .fsgnjH (w.extractLsb' 7 5) (w.extractLsb' 15 5) (w.extractLsb' 20 5)⟩,
  ⟨0xfe00707f#32, 0x24001053#32, fun w => .fsgnjnH (w.extractLsb' 7 5) (w.extractLsb' 15 5) (w.extractLsb' 20 5)⟩,
  ⟨0xfe00707f#32, 0x24002053#32, fun w => .fsgnjxH (w.extractLsb' 7 5) (w.extractLsb' 15 5) (w.extractLsb' 20 5)⟩,
  ⟨0xfe00707f#32, 0x2c000053#32, fun w => .fminH (w.extractLsb' 7 5) (w.extractLsb' 15 5) (w.extractLsb' 20 5)⟩,
  ⟨0xfe00707f#32, 0x2c001053#32, fun w => .fmaxH (w.extractLsb' 7 5) (w.extractLsb' 15 5) (w.extractLsb' 20 5)⟩,
  ⟨0xfff0007f#32, 0x40200053#32, fun w => .fcvtSH (w.extractLsb' 7 5) (w.extractLsb' 15 5) (w.extractLsb' 12 3)⟩,
  ⟨0xfff0007f#32, 0x44000053#32, fun w => .fcvtHS (w.extractLsb' 7 5) (w.extractLsb' 15 5) (w.extractLsb' 12 3)⟩]

/-- Rows of file 48: fcvt.d.h to fsh. -/
def rows32Zfh2 : List Row32 := [
  ⟨0xfff0007f#32, 0x42200053#32, fun w => .fcvtDH (w.extractLsb' 7 5) (w.extractLsb' 15 5) (w.extractLsb' 12 3)⟩,
  ⟨0xfff0007f#32, 0x44100053#32, fun w => .fcvtHD (w.extractLsb' 7 5) (w.extractLsb' 15 5) (w.extractLsb' 12 3)⟩,
  ⟨0xfff0007f#32, 0x46200053#32, fun w => .fcvtQH (w.extractLsb' 7 5) (w.extractLsb' 15 5) (w.extractLsb' 12 3)⟩,
  ⟨0xfff0007f#32, 0x44300053#32, fun w => .fcvtHQ (w.extractLsb' 7 5) (w.extractLsb' 15 5) (w.extractLsb' 12 3)⟩,
  ⟨0xfe00707f#32, 0xa4002053#32, fun w => .feqH (w.extractLsb' 7 5) (w.extractLsb' 15 5) (w.extractLsb' 20 5)⟩,
  ⟨0xfe00707f#32, 0xa4001053#32, fun w => .fltH (w.extractLsb' 7 5) (w.extractLsb' 15 5) (w.extractLsb' 20 5)⟩,
  ⟨0xfe00707f#32, 0xa4000053#32, fun w => .fleH (w.extractLsb' 7 5) (w.extractLsb' 15 5) (w.extractLsb' 20 5)⟩,
  ⟨0xfff0707f#32, 0xe4001053#32, fun w => .fclassH (w.extractLsb' 7 5) (w.extractLsb' 15 5)⟩,
  ⟨0xfff0007f#32, 0xc4000053#32, fun w => .fcvtWH (w.extractLsb' 7 5) (w.extractLsb' 15 5) (w.extractLsb' 12 3)⟩,
  ⟨0xfff0007f#32, 0xc4100053#32, fun w => .fcvtWuH (w.extractLsb' 7 5) (w.extractLsb' 15 5) (w.extractLsb' 12 3)⟩,
  ⟨0xfff0707f#32, 0xe4000053#32, fun w => .fmvXH (w.extractLsb' 7 5) (w.extractLsb' 15 5)⟩,
  ⟨0xfff0007f#32, 0xd4000053#32, fun w => .fcvtHW (w.extractLsb' 7 5) (w.extractLsb' 15 5) (w.extractLsb' 12 3)⟩,
  ⟨0xfff0007f#32, 0xd4100053#32, fun w => .fcvtHWu (w.extractLsb' 7 5) (w.extractLsb' 15 5) (w.extractLsb' 12 3)⟩,
  ⟨0xfff0707f#32, 0xf4000053#32, fun w => .fmvHX (w.extractLsb' 7 5) (w.extractLsb' 15 5)⟩,
  ⟨0x0000707f#32, 0x00001007#32, fun w => .flh (w.extractLsb' 7 5) (w.extractLsb' 15 5) (w.extractLsb' 20 12)⟩,
  ⟨0x0000707f#32, 0x00001027#32, fun w =>
    .fsh (w.extractLsb' 15 5) (w.extractLsb' 20 5) (w.extractLsb' 25 7 ++ w.extractLsb' 7 5)⟩]

/-- Rows of file 48: fcvt.l.h to fcvt.h.lu. -/
def rows32Zfh3 : List Row32 := [
  ⟨0xfff0007f#32, 0xc4200053#32, fun w => .fcvtLH (w.extractLsb' 7 5) (w.extractLsb' 15 5) (w.extractLsb' 12 3)⟩,
  ⟨0xfff0007f#32, 0xc4300053#32, fun w => .fcvtLuH (w.extractLsb' 7 5) (w.extractLsb' 15 5) (w.extractLsb' 12 3)⟩,
  ⟨0xfff0007f#32, 0xd4200053#32, fun w => .fcvtHL (w.extractLsb' 7 5) (w.extractLsb' 15 5) (w.extractLsb' 12 3)⟩,
  ⟨0xfff0007f#32, 0xd4300053#32, fun w => .fcvtHLu (w.extractLsb' 7 5) (w.extractLsb' 15 5) (w.extractLsb' 12 3)⟩]

/-- Rows of file 46: c.addi4spn to c.lui. -/
def rows16C1 : List Row16 := [
  ⟨0xe003#16, 0x0000#16, fun w =>
    .cAddi4spn (w.extractLsb' 2 3) (w.extractLsb' 7 4 ++ w.extractLsb' 11 2 ++ w.extractLsb' 5 1 ++ w.extractLsb' 6 1)⟩,
  ⟨0xe003#16, 0x2000#16, fun w => .cFld (w.extractLsb' 2 3) (w.extractLsb' 7 3) (w.extractLsb' 5 2 ++ w.extractLsb' 10 3)⟩,
  ⟨0xe003#16, 0x4000#16, fun w =>
    .cLw (w.extractLsb' 2 3) (w.extractLsb' 7 3) (w.extractLsb' 5 1 ++ w.extractLsb' 10 3 ++ w.extractLsb' 6 1)⟩,
  ⟨0xe003#16, 0x6000#16, fun w =>
    .cFlw (w.extractLsb' 2 3) (w.extractLsb' 7 3) (w.extractLsb' 5 1 ++ w.extractLsb' 10 3 ++ w.extractLsb' 6 1)⟩,
  ⟨0xe003#16, 0x6000#16, fun w => .cLd (w.extractLsb' 2 3) (w.extractLsb' 7 3) (w.extractLsb' 5 2 ++ w.extractLsb' 10 3)⟩,
  ⟨0xe003#16, 0xa000#16, fun w => .cFsd (w.extractLsb' 7 3) (w.extractLsb' 2 3) (w.extractLsb' 5 2 ++ w.extractLsb' 10 3)⟩,
  ⟨0xe003#16, 0xc000#16, fun w =>
    .cSw (w.extractLsb' 7 3) (w.extractLsb' 2 3) (w.extractLsb' 5 1 ++ w.extractLsb' 10 3 ++ w.extractLsb' 6 1)⟩,
  ⟨0xe003#16, 0xe000#16, fun w =>
    .cFsw (w.extractLsb' 7 3) (w.extractLsb' 2 3) (w.extractLsb' 5 1 ++ w.extractLsb' 10 3 ++ w.extractLsb' 6 1)⟩,
  ⟨0xe003#16, 0xe000#16, fun w => .cSd (w.extractLsb' 7 3) (w.extractLsb' 2 3) (w.extractLsb' 5 2 ++ w.extractLsb' 10 3)⟩,
  ⟨0xef83#16, 0x0001#16, fun w => .cNop (w.extractLsb' 12 1 ++ w.extractLsb' 2 5)⟩,
  ⟨0xe003#16, 0x0001#16, fun w => .cAddi (w.extractLsb' 7 5) (w.extractLsb' 12 1 ++ w.extractLsb' 2 5)⟩,
  ⟨0xe003#16, 0x2001#16, fun w =>
    .cJal (w.extractLsb' 12 1 ++ w.extractLsb' 8 1 ++ w.extractLsb' 9 2 ++ w.extractLsb' 6 1 ++ w.extractLsb' 7 1 ++ w.extractLsb' 2 1 ++ w.extractLsb' 11 1 ++ w.extractLsb' 3 3)⟩,
  ⟨0xe003#16, 0x2001#16, fun w => .cAddiw (w.extractLsb' 7 5) (w.extractLsb' 12 1 ++ w.extractLsb' 2 5)⟩,
  ⟨0xe003#16, 0x4001#16, fun w => .cLi (w.extractLsb' 7 5) (w.extractLsb' 12 1 ++ w.extractLsb' 2 5)⟩,
  ⟨0xef83#16, 0x6101#16, fun w =>
    .cAddi16sp (w.extractLsb' 12 1 ++ w.extractLsb' 3 2 ++ w.extractLsb' 5 1 ++ w.extractLsb' 2 1 ++ w.extractLsb' 6 1)⟩,
  ⟨0xe003#16, 0x6001#16, fun w => .cLui (w.extractLsb' 7 5) (w.extractLsb' 12 1 ++ w.extractLsb' 2 5)⟩]

/-- Rows of file 46: c.srli to c.flwsp. -/
def rows16C2 : List Row16 := [
  ⟨0xec03#16, 0x8001#16, fun w => .cSrli (w.extractLsb' 7 3) (w.extractLsb' 12 1 ++ w.extractLsb' 2 5)⟩,
  ⟨0xec03#16, 0x8401#16, fun w => .cSrai (w.extractLsb' 7 3) (w.extractLsb' 12 1 ++ w.extractLsb' 2 5)⟩,
  ⟨0xec03#16, 0x8801#16, fun w => .cAndi (w.extractLsb' 7 3) (w.extractLsb' 12 1 ++ w.extractLsb' 2 5)⟩,
  ⟨0xfc63#16, 0x8c01#16, fun w => .cSub (w.extractLsb' 7 3) (w.extractLsb' 2 3)⟩,
  ⟨0xfc63#16, 0x8c21#16, fun w => .cXor (w.extractLsb' 7 3) (w.extractLsb' 2 3)⟩,
  ⟨0xfc63#16, 0x8c41#16, fun w => .cOr (w.extractLsb' 7 3) (w.extractLsb' 2 3)⟩,
  ⟨0xfc63#16, 0x8c61#16, fun w => .cAnd (w.extractLsb' 7 3) (w.extractLsb' 2 3)⟩,
  ⟨0xfc63#16, 0x9c01#16, fun w => .cSubw (w.extractLsb' 7 3) (w.extractLsb' 2 3)⟩,
  ⟨0xfc63#16, 0x9c21#16, fun w => .cAddw (w.extractLsb' 7 3) (w.extractLsb' 2 3)⟩,
  ⟨0xe003#16, 0xa001#16, fun w =>
    .cJ (w.extractLsb' 12 1 ++ w.extractLsb' 8 1 ++ w.extractLsb' 9 2 ++ w.extractLsb' 6 1 ++ w.extractLsb' 7 1 ++ w.extractLsb' 2 1 ++ w.extractLsb' 11 1 ++ w.extractLsb' 3 3)⟩,
  ⟨0xe003#16, 0xc001#16, fun w =>
    .cBeqz (w.extractLsb' 7 3) (w.extractLsb' 12 1 ++ w.extractLsb' 5 2 ++ w.extractLsb' 2 1 ++ w.extractLsb' 10 2 ++ w.extractLsb' 3 2)⟩,
  ⟨0xe003#16, 0xe001#16, fun w =>
    .cBnez (w.extractLsb' 7 3) (w.extractLsb' 12 1 ++ w.extractLsb' 5 2 ++ w.extractLsb' 2 1 ++ w.extractLsb' 10 2 ++ w.extractLsb' 3 2)⟩,
  ⟨0xe003#16, 0x0002#16, fun w => .cSlli (w.extractLsb' 7 5) (w.extractLsb' 12 1 ++ w.extractLsb' 2 5)⟩,
  ⟨0xe003#16, 0x2002#16, fun w => .cFldsp (w.extractLsb' 7 5) (w.extractLsb' 2 3 ++ w.extractLsb' 12 1 ++ w.extractLsb' 5 2)⟩,
  ⟨0xe003#16, 0x4002#16, fun w => .cLwsp (w.extractLsb' 7 5) (w.extractLsb' 2 2 ++ w.extractLsb' 12 1 ++ w.extractLsb' 4 3)⟩,
  ⟨0xe003#16, 0x6002#16, fun w => .cFlwsp (w.extractLsb' 7 5) (w.extractLsb' 2 2 ++ w.extractLsb' 12 1 ++ w.extractLsb' 4 3)⟩]

/-- Rows of file 46: c.ldsp to c.sdsp. -/
def rows16C3 : List Row16 := [
  ⟨0xe003#16, 0x6002#16, fun w => .cLdsp (w.extractLsb' 7 5) (w.extractLsb' 2 3 ++ w.extractLsb' 12 1 ++ w.extractLsb' 5 2)⟩,
  ⟨0xf07f#16, 0x8002#16, fun w => .cJr (w.extractLsb' 7 5)⟩,
  ⟨0xf003#16, 0x8002#16, fun w => .cMv (w.extractLsb' 7 5) (w.extractLsb' 2 5)⟩,
  ⟨0xffff#16, 0x9002#16, fun _ => .cEbreak⟩,
  ⟨0xf07f#16, 0x9002#16, fun w => .cJalr (w.extractLsb' 7 5)⟩,
  ⟨0xf003#16, 0x9002#16, fun w => .cAdd (w.extractLsb' 7 5) (w.extractLsb' 2 5)⟩,
  ⟨0xe003#16, 0xa002#16, fun w => .cFsdsp (w.extractLsb' 2 5) (w.extractLsb' 7 3 ++ w.extractLsb' 10 3)⟩,
  ⟨0xe003#16, 0xc002#16, fun w => .cSwsp (w.extractLsb' 2 5) (w.extractLsb' 7 2 ++ w.extractLsb' 9 4)⟩,
  ⟨0xe003#16, 0xe002#16, fun w => .cFswsp (w.extractLsb' 2 5) (w.extractLsb' 7 2 ++ w.extractLsb' 9 4)⟩,
  ⟨0xe003#16, 0xe002#16, fun w => .cSdsp (w.extractLsb' 2 5) (w.extractLsb' 7 3 ++ w.extractLsb' 10 3)⟩]

/-- Rows of file 49: c.lbu to cm.popret. -/
def rows16Zc1 : List Row16 := [
  ⟨0xfc03#16, 0x8000#16, fun w => .cLbu (w.extractLsb' 2 3) (w.extractLsb' 7 3) (w.extractLsb' 5 1 ++ w.extractLsb' 6 1)⟩,
  ⟨0xfc43#16, 0x8400#16, fun w => .cLhu (w.extractLsb' 2 3) (w.extractLsb' 7 3) (w.extractLsb' 5 1)⟩,
  ⟨0xfc43#16, 0x8440#16, fun w => .cLh (w.extractLsb' 2 3) (w.extractLsb' 7 3) (w.extractLsb' 5 1)⟩,
  ⟨0xfc03#16, 0x8800#16, fun w => .cSb (w.extractLsb' 7 3) (w.extractLsb' 2 3) (w.extractLsb' 5 1 ++ w.extractLsb' 6 1)⟩,
  ⟨0xfc43#16, 0x8c00#16, fun w => .cSh (w.extractLsb' 7 3) (w.extractLsb' 2 3) (w.extractLsb' 5 1)⟩,
  ⟨0xfc7f#16, 0x9c61#16, fun w => .cZextB (w.extractLsb' 7 3)⟩,
  ⟨0xfc7f#16, 0x9c65#16, fun w => .cSextB (w.extractLsb' 7 3)⟩,
  ⟨0xfc7f#16, 0x9c69#16, fun w => .cZextH (w.extractLsb' 7 3)⟩,
  ⟨0xfc7f#16, 0x9c6d#16, fun w => .cSextH (w.extractLsb' 7 3)⟩,
  ⟨0xfc7f#16, 0x9c71#16, fun w => .cZextW (w.extractLsb' 7 3)⟩,
  ⟨0xfc7f#16, 0x9c75#16, fun w => .cNot (w.extractLsb' 7 3)⟩,
  ⟨0xfc63#16, 0x9c41#16, fun w => .cMul (w.extractLsb' 7 3) (w.extractLsb' 2 3)⟩,
  ⟨0xff03#16, 0xb802#16, fun w => .cmPush (w.extractLsb' 4 4) (w.extractLsb' 2 2)⟩,
  ⟨0xff03#16, 0xba02#16, fun w => .cmPop (w.extractLsb' 4 4) (w.extractLsb' 2 2)⟩,
  ⟨0xff03#16, 0xbc02#16, fun w => .cmPopretz (w.extractLsb' 4 4) (w.extractLsb' 2 2)⟩,
  ⟨0xff03#16, 0xbe02#16, fun w => .cmPopret (w.extractLsb' 4 4) (w.extractLsb' 2 2)⟩]

/-- Rows of file 49: cm.mvsa01 to cm.jalt. -/
def rows16Zc2 : List Row16 := [
  ⟨0xfc63#16, 0xac22#16, fun w => .cmMvsa01 (w.extractLsb' 7 3) (w.extractLsb' 2 3)⟩,
  ⟨0xfc63#16, 0xac62#16, fun w => .cmMva01s (w.extractLsb' 7 3) (w.extractLsb' 2 3)⟩,
  ⟨0xfc03#16, 0xa002#16, fun w => .cmJt (w.extractLsb' 2 8)⟩,
  ⟨0xfc03#16, 0xa002#16, fun w => .cmJalt (w.extractLsb' 2 8)⟩]

/-- The 32-bit rows of spec/opcode_table.json. -/
noncomputable def rows32 : List Row32 :=
  rows32Base1 ++ rows32Base2 ++ rows32Base3 ++ rows32Base4 ++ rows32M1 ++ rows32A1
    ++ rows32A2 ++ rows32F1 ++ rows32F2 ++ rows32D1 ++ rows32D2 ++ rows32B1
    ++ rows32B2 ++ rows32B3 ++ rows32Zfh1 ++ rows32Zfh2 ++ rows32Zfh3

/-- The 16-bit rows of spec/opcode_table.json. -/
def rows16 : List Row16 :=
  rows16C1 ++ rows16C2 ++ rows16C3 ++ rows16Zc1 ++ rows16Zc2

/-- Whether a row is the row of the word `w`: the fixed bits agree, and the instruction read from the fields exists on the
machine and meets the row's conditions (30_encoding.md R122). -/
def Row32.admits (r : Row32) (xlen : Xlen) (ext : Ext) (w : BitVec 32) : Bool :=
  (w &&& r.mask == r.pattern) && (r.build w).wf xlen ext

/-- `Row32.admits` for 16-bit words. -/
def Row16.admits (r : Row16) (xlen : Xlen) (ext : Ext) (w : BitVec 16) : Bool :=
  (w &&& r.mask == r.pattern) && (r.build w).wf xlen ext

/-- The instruction of a 32-bit word, or none: a reserved encoding (30_encoding.md R122, R123). -/
noncomputable def decode32 (xlen : Xlen) (ext : Ext) (w : BitVec 32) : Option Instr :=
  (rows32.find? (fun r => r.admits xlen ext w)).map (fun r => r.build w)

/-- The instruction of a 16-bit word, or none: a reserved encoding (30_encoding.md R122, R123). -/
def decode16 (xlen : Xlen) (ext : Ext) (w : BitVec 16) : Option Instr :=
  (rows16.find? (fun r => r.admits xlen ext w)).map (fun r => r.build w)

/-- An instruction's bits as stored: one 16-bit parcel or two (30_encoding.md R100, 20_memory.md R63). -/
inductive Code where
  | half (w : BitVec 16)
  | full (w : BitVec 32)
  deriving DecidableEq, Repr

/-- The instruction's bits zero-extended: the trap value of illegal-instruction (60_exceptions.md R603). -/
def Code.bits : Code → Word
  | .half w => w.setWidth 64
  | .full w => w.setWidth 64

/-- The length in bytes (30_encoding.md R100). -/
def Code.size : Code → Nat
  | .half _ => 2
  | .full _ => 4

/-- The bytes in memory order: parcels little-endian, lowest-numbered bits at the lowest address (20_memory.md R63). -/
def Code.bytes : Code → List Byte
  | .half w => [w.extractLsb' 0 8, w.extractLsb' 8 8]
  | .full w => [w.extractLsb' 0 8, w.extractLsb' 8 8, w.extractLsb' 16 8, w.extractLsb' 24 8]

/-- Whether a first parcel announces a 32-bit instruction: its two low bits are 11 (30_encoding.md R101). A parcel whose five
low bits are 11111 announces a longer one, which does not exist; it is fetched as 32 bits and no row matches it. -/
def isLong (parcel : BitVec 16) : Bool := parcel.extractLsb' 0 2 == 0b11#2

/-- The instruction of fetched code, or none (30_encoding.md R122). -/
noncomputable def decode (xlen : Xlen) (ext : Ext) : Code → Option Instr
  | .half w => decode16 xlen ext w
  | .full w => decode32 xlen ext w

/-- Why bytes are not an instruction. -/
inductive DecodeError where
  /-- Fewer bytes than the instruction's length needs. -/
  | truncated
  /-- The word matches no row of the machine (30_encoding.md R123). -/
  | reserved (code : Code)
  deriving DecidableEq, Repr

/-- Decoding any bytes: the instruction and the bytes after it, or why there is none. -/
noncomputable def decodeBytes (xlen : Xlen) (ext : Ext) : List Byte → Except DecodeError (Instr × List Byte)
  | b0 :: b1 :: rest =>
    let parcel : BitVec 16 := b1 ++ b0
    if isLong parcel then
      match rest with
      | b2 :: b3 :: rest' =>
        match decode32 xlen ext (b3 ++ b2 ++ b1 ++ b0) with
        | some i => .ok (i, rest')
        | none => .error (.reserved (.full (b3 ++ b2 ++ b1 ++ b0)))
      | _ => .error .truncated
    else
      match decode16 xlen ext parcel with
      | some i => .ok (i, rest)
      | none => .error (.reserved (.half parcel))
  | _ => .error .truncated

/-- The machines a table row is tried on, first to last: RV64 with every unit; RV64 without Zcmp and Zcmt, which displace
c.fld, c.fsd, c.fldsp and c.fsdsp (46_c_compressed.md R394); the same two on RV32 (log 9). -/
def tableMachines : List (Xlen × Ext) :=
  [(.rv64, Ext.all), (.rv64, Ext.noPushJump), (.rv32, Ext.all), (.rv32, Ext.noPushJump)]

/-- The first machine of the list on which the bytes decode, with the instruction. -/
noncomputable def decodeFirst (bytes : List Byte) : List (Xlen × Ext) → Option (Xlen × Ext × Instr)
  | [] => none
  | (xlen, ext) :: rest =>
    match decodeBytes xlen ext bytes with
    | .ok (i, _) => some (xlen, ext, i)
    | .error _ => decodeFirst bytes rest

/-- The bytes of a table word, numbered as spec/opcode_table.json numbers it: bit 0 is the least significant bit of the first
parcel; every bit from `nbits` up is 0. -/
def tableBytes (nbits w : Nat) : List Byte :=
  (Code.full (BitVec.ofNat 32 (w % 2 ^ nbits))).bytes

/-- The instruction the decoder reads from a word of the opcode table, on the first machine of `tableMachines` that has it. -/
noncomputable def decodeTableWord (nbits w : Nat) : Option Instr :=
  (decodeFirst (tableBytes nbits w) tableMachines).map (fun m => m.2.2)

/-- The word of an instruction (the `encoding` entries of spec/opcode_table.json, most significant bit first). -/
def Instr.encode : Instr → Code
  | .lui rd imm => .full (imm ++ rd ++ 0b0110111#7)
  | .auipc rd imm => .full (imm ++ rd ++ 0b0010111#7)
  | .addi rd rs1 imm => .full (imm ++ rs1 ++ 0b000#3 ++ rd ++ 0b0010011#7)
  | .slti rd rs1 imm => .full (imm ++ rs1 ++ 0b010#3 ++ rd ++ 0b0010011#7)
  | .sltiu rd rs1 imm => .full (imm ++ rs1 ++ 0b011#3 ++ rd ++ 0b0010011#7)
  | .xori rd rs1 imm => .full (imm ++ rs1 ++ 0b100#3 ++ rd ++ 0b0010011#7)
  | .ori rd rs1 imm => .full (imm ++ rs1 ++ 0b110#3 ++ rd ++ 0b0010011#7)
  | .andi rd rs1 imm => .full (imm ++ rs1 ++ 0b111#3 ++ rd ++ 0b0010011#7)
  | .slli rd rs1 shamt => .full (0b000000#6 ++ shamt ++ rs1 ++ 0b001#3 ++ rd ++ 0b0010011#7)
  | .srli rd rs1 shamt => .full (0b000000#6 ++ shamt ++ rs1 ++ 0b101#3 ++ rd ++ 0b0010011#7)
  | .srai rd rs1 shamt => .full (0b010000#6 ++ shamt ++ rs1 ++ 0b101#3 ++ rd ++ 0b0010011#7)
  | .add rd rs1 rs2 => .full (0b0000000#7 ++ rs2 ++ rs1 ++ 0b000#3 ++ rd ++ 0b0110011#7)
  | .sub rd rs1 rs2 => .full (0b0100000#7 ++ rs2 ++ rs1 ++ 0b000#3 ++ rd ++ 0b0110011#7)
  | .sll rd rs1 rs2 => .full (0b0000000#7 ++ rs2 ++ rs1 ++ 0b001#3 ++ rd ++ 0b0110011#7)
  | .slt rd rs1 rs2 => .full (0b0000000#7 ++ rs2 ++ rs1 ++ 0b010#3 ++ rd ++ 0b0110011#7)
  | .sltu rd rs1 rs2 => .full (0b0000000#7 ++ rs2 ++ rs1 ++ 0b011#3 ++ rd ++ 0b0110011#7)
  | .xor rd rs1 rs2 => .full (0b0000000#7 ++ rs2 ++ rs1 ++ 0b100#3 ++ rd ++ 0b0110011#7)
  | .srl rd rs1 rs2 => .full (0b0000000#7 ++ rs2 ++ rs1 ++ 0b101#3 ++ rd ++ 0b0110011#7)
  | .sra rd rs1 rs2 => .full (0b0100000#7 ++ rs2 ++ rs1 ++ 0b101#3 ++ rd ++ 0b0110011#7)
  | .or rd rs1 rs2 => .full (0b0000000#7 ++ rs2 ++ rs1 ++ 0b110#3 ++ rd ++ 0b0110011#7)
  | .and rd rs1 rs2 => .full (0b0000000#7 ++ rs2 ++ rs1 ++ 0b111#3 ++ rd ++ 0b0110011#7)
  | .fence rd rs1 fm pred succ => .full (fm ++ pred ++ succ ++ rs1 ++ 0b000#3 ++ rd ++ 0b0001111#7)
  | .fenceI rd rs1 imm => .full (imm ++ rs1 ++ 0b001#3 ++ rd ++ 0b0001111#7)
  | .csrrw rd rs1 csr => .full (csr ++ rs1 ++ 0b001#3 ++ rd ++ 0b1110011#7)
  | .csrrs rd rs1 csr => .full (csr ++ rs1 ++ 0b010#3 ++ rd ++ 0b1110011#7)
  | .csrrc rd rs1 csr => .full (csr ++ rs1 ++ 0b011#3 ++ rd ++ 0b1110011#7)
  | .csrrwi rd csr uimm => .full (csr ++ uimm ++ 0b101#3 ++ rd ++ 0b1110011#7)
  | .csrrsi rd csr uimm => .full (csr ++ uimm ++ 0b110#3 ++ rd ++ 0b1110011#7)
  | .csrrci rd csr uimm => .full (csr ++ uimm ++ 0b111#3 ++ rd ++ 0b1110011#7)
  | .ecall => .full (0b00000000000000000000000001110011#32)
  | .ebreak => .full (0b00000000000100000000000001110011#32)
  | .sret => .full (0b00010000001000000000000001110011#32)
  | .mret => .full (0b00110000001000000000000001110011#32)
  | .wfi => .full (0b00010000010100000000000001110011#32)
  | .sfenceVma rs1 rs2 => .full (0b0001001#7 ++ rs2 ++ rs1 ++ 0b000000001110011#15)
  | .lb rd rs1 imm => .full (imm ++ rs1 ++ 0b000#3 ++ rd ++ 0b0000011#7)
  | .lh rd rs1 imm => .full (imm ++ rs1 ++ 0b001#3 ++ rd ++ 0b0000011#7)
  | .lw rd rs1 imm => .full (imm ++ rs1 ++ 0b010#3 ++ rd ++ 0b0000011#7)
  | .lbu rd rs1 imm => .full (imm ++ rs1 ++ 0b100#3 ++ rd ++ 0b0000011#7)
  | .lhu rd rs1 imm => .full (imm ++ rs1 ++ 0b101#3 ++ rd ++ 0b0000011#7)
  | .sb rs1 rs2 imm => .full (imm.extractLsb' 5 7 ++ rs2 ++ rs1 ++ 0b000#3 ++ imm.extractLsb' 0 5 ++ 0b0100011#7)
  | .sh rs1 rs2 imm => .full (imm.extractLsb' 5 7 ++ rs2 ++ rs1 ++ 0b001#3 ++ imm.extractLsb' 0 5 ++ 0b0100011#7)
  | .sw rs1 rs2 imm => .full (imm.extractLsb' 5 7 ++ rs2 ++ rs1 ++ 0b010#3 ++ imm.extractLsb' 0 5 ++ 0b0100011#7)
  | .jal rd imm =>
    .full (imm.extractLsb' 19 1 ++ imm.extractLsb' 0 10 ++ imm.extractLsb' 10 1 ++ imm.extractLsb' 11 8 ++ rd ++ 0b1101111#7)
  | .jalr rd rs1 imm => .full (imm ++ rs1 ++ 0b000#3 ++ rd ++ 0b1100111#7)
  | .beq rs1 rs2 imm =>
    .full (imm.extractLsb' 11 1 ++ imm.extractLsb' 4 6 ++ rs2 ++ rs1 ++ 0b000#3 ++ imm.extractLsb' 0 4 ++ imm.extractLsb' 10 1 ++ 0b1100011#7)
  | .bne rs1 rs2 imm =>
    .full (imm.extractLsb' 11 1 ++ imm.extractLsb' 4 6 ++ rs2 ++ rs1 ++ 0b001#3 ++ imm.extractLsb' 0 4 ++ imm.extractLsb' 10 1 ++ 0b1100011#7)
  | .blt rs1 rs2 imm =>
    .full (imm.extractLsb' 11 1 ++ imm.extractLsb' 4 6 ++ rs2 ++ rs1 ++ 0b100#3 ++ imm.extractLsb' 0 4 ++ imm.extractLsb' 10 1 ++ 0b1100011#7)
  | .bge rs1 rs2 imm =>
    .full (imm.extractLsb' 11 1 ++ imm.extractLsb' 4 6 ++ rs2 ++ rs1 ++ 0b101#3 ++ imm.extractLsb' 0 4 ++ imm.extractLsb' 10 1 ++ 0b1100011#7)
  | .bltu rs1 rs2 imm =>
    .full (imm.extractLsb' 11 1 ++ imm.extractLsb' 4 6 ++ rs2 ++ rs1 ++ 0b110#3 ++ imm.extractLsb' 0 4 ++ imm.extractLsb' 10 1 ++ 0b1100011#7)
  | .bgeu rs1 rs2 imm =>
    .full (imm.extractLsb' 11 1 ++ imm.extractLsb' 4 6 ++ rs2 ++ rs1 ++ 0b111#3 ++ imm.extractLsb' 0 4 ++ imm.extractLsb' 10 1 ++ 0b1100011#7)
  | .addiw rd rs1 imm => .full (imm ++ rs1 ++ 0b000#3 ++ rd ++ 0b0011011#7)
  | .slliw rd rs1 shamt => .full (0b0000000#7 ++ shamt ++ rs1 ++ 0b001#3 ++ rd ++ 0b0011011#7)
  | .srliw rd rs1 shamt => .full (0b0000000#7 ++ shamt ++ rs1 ++ 0b101#3 ++ rd ++ 0b0011011#7)
  | .sraiw rd rs1 shamt => .full (0b0100000#7 ++ shamt ++ rs1 ++ 0b101#3 ++ rd ++ 0b0011011#7)
  | .addw rd rs1 rs2 => .full (0b0000000#7 ++ rs2 ++ rs1 ++ 0b000#3 ++ rd ++ 0b0111011#7)
  | .subw rd rs1 rs2 => .full (0b0100000#7 ++ rs2 ++ rs1 ++ 0b000#3 ++ rd ++ 0b0111011#7)
  | .sllw rd rs1 rs2 => .full (0b0000000#7 ++ rs2 ++ rs1 ++ 0b001#3 ++ rd ++ 0b0111011#7)
  | .srlw rd rs1 rs2 => .full (0b0000000#7 ++ rs2 ++ rs1 ++ 0b101#3 ++ rd ++ 0b0111011#7)
  | .sraw rd rs1 rs2 => .full (0b0100000#7 ++ rs2 ++ rs1 ++ 0b101#3 ++ rd ++ 0b0111011#7)
  | .lwu rd rs1 imm => .full (imm ++ rs1 ++ 0b110#3 ++ rd ++ 0b0000011#7)
  | .ld rd rs1 imm => .full (imm ++ rs1 ++ 0b011#3 ++ rd ++ 0b0000011#7)
  | .sd rs1 rs2 imm => .full (imm.extractLsb' 5 7 ++ rs2 ++ rs1 ++ 0b011#3 ++ imm.extractLsb' 0 5 ++ 0b0100011#7)
  | .fmaddS rd rs1 rs2 rs3 rm => .full (rs3 ++ 0b00#2 ++ rs2 ++ rs1 ++ rm ++ rd ++ 0b1000011#7)
  | .fmsubS rd rs1 rs2 rs3 rm => .full (rs3 ++ 0b00#2 ++ rs2 ++ rs1 ++ rm ++ rd ++ 0b1000111#7)
  | .fnmsubS rd rs1 rs2 rs3 rm => .full (rs3 ++ 0b00#2 ++ rs2 ++ rs1 ++ rm ++ rd ++ 0b1001011#7)
  | .fnmaddS rd rs1 rs2 rs3 rm => .full (rs3 ++ 0b00#2 ++ rs2 ++ rs1 ++ rm ++ rd ++ 0b1001111#7)
  | .faddS rd rs1 rs2 rm => .full (0b0000000#7 ++ rs2 ++ rs1 ++ rm ++ rd ++ 0b1010011#7)
  | .fsubS rd rs1 rs2 rm => .full (0b0000100#7 ++ rs2 ++ rs1 ++ rm ++ rd ++ 0b1010011#7)
  | .fmulS rd rs1 rs2 rm => .full (0b0001000#7 ++ rs2 ++ rs1 ++ rm ++ rd ++ 0b1010011#7)
  | .fdivS rd rs1 rs2 rm => .full (0b0001100#7 ++ rs2 ++ rs1 ++ rm ++ rd ++ 0b1010011#7)
  | .fsqrtS rd rs1 rm => .full (0b010110000000#12 ++ rs1 ++ rm ++ rd ++ 0b1010011#7)
  | .fsgnjS rd rs1 rs2 => .full (0b0010000#7 ++ rs2 ++ rs1 ++ 0b000#3 ++ rd ++ 0b1010011#7)
  | .fsgnjnS rd rs1 rs2 => .full (0b0010000#7 ++ rs2 ++ rs1 ++ 0b001#3 ++ rd ++ 0b1010011#7)
  | .fsgnjxS rd rs1 rs2 => .full (0b0010000#7 ++ rs2 ++ rs1 ++ 0b010#3 ++ rd ++ 0b1010011#7)
  | .fminS rd rs1 rs2 => .full (0b0010100#7 ++ rs2 ++ rs1 ++ 0b000#3 ++ rd ++ 0b1010011#7)
  | .fmaxS rd rs1 rs2 => .full (0b0010100#7 ++ rs2 ++ rs1 ++ 0b001#3 ++ rd ++ 0b1010011#7)
  | .fcvtWS rd rs1 rm => .full (0b110000000000#12 ++ rs1 ++ rm ++ rd ++ 0b1010011#7)
  | .fcvtWuS rd rs1 rm => .full (0b110000000001#12 ++ rs1 ++ rm ++ rd ++ 0b1010011#7)
  | .fmvXW rd rs1 => .full (0b111000000000#12 ++ rs1 ++ 0b000#3 ++ rd ++ 0b1010011#7)
  | .feqS rd rs1 rs2 => .full (0b1010000#7 ++ rs2 ++ rs1 ++ 0b010#3 ++ rd ++ 0b1010011#7)
  | .fltS rd rs1 rs2 => .full (0b1010000#7 ++ rs2 ++ rs1 ++ 0b001#3 ++ rd ++ 0b1010011#7)
  | .fleS rd rs1 rs2 => .full (0b1010000#7 ++ rs2 ++ rs1 ++ 0b000#3 ++ rd ++ 0b1010011#7)
  | .fclassS rd rs1 => .full (0b111000000000#12 ++ rs1 ++ 0b001#3 ++ rd ++ 0b1010011#7)
  | .fcvtSW rd rs1 rm => .full (0b110100000000#12 ++ rs1 ++ rm ++ rd ++ 0b1010011#7)
  | .fcvtSWu rd rs1 rm => .full (0b110100000001#12 ++ rs1 ++ rm ++ rd ++ 0b1010011#7)
  | .fmvWX rd rs1 => .full (0b111100000000#12 ++ rs1 ++ 0b000#3 ++ rd ++ 0b1010011#7)
  | .flw rd rs1 imm => .full (imm ++ rs1 ++ 0b010#3 ++ rd ++ 0b0000111#7)
  | .fsw rs1 rs2 imm => .full (imm.extractLsb' 5 7 ++ rs2 ++ rs1 ++ 0b010#3 ++ imm.extractLsb' 0 5 ++ 0b0100111#7)
  | .fcvtLS rd rs1 rm => .full (0b110000000010#12 ++ rs1 ++ rm ++ rd ++ 0b1010011#7)
  | .fcvtLuS rd rs1 rm => .full (0b110000000011#12 ++ rs1 ++ rm ++ rd ++ 0b1010011#7)
  | .fcvtSL rd rs1 rm => .full (0b110100000010#12 ++ rs1 ++ rm ++ rd ++ 0b1010011#7)
  | .fcvtSLu rd rs1 rm => .full (0b110100000011#12 ++ rs1 ++ rm ++ rd ++ 0b1010011#7)
  | .fmaddD rd rs1 rs2 rs3 rm => .full (rs3 ++ 0b01#2 ++ rs2 ++ rs1 ++ rm ++ rd ++ 0b1000011#7)
  | .fmsubD rd rs1 rs2 rs3 rm => .full (rs3 ++ 0b01#2 ++ rs2 ++ rs1 ++ rm ++ rd ++ 0b1000111#7)
  | .fnmsubD rd rs1 rs2 rs3 rm => .full (rs3 ++ 0b01#2 ++ rs2 ++ rs1 ++ rm ++ rd ++ 0b1001011#7)
  | .fnmaddD rd rs1 rs2 rs3 rm => .full (rs3 ++ 0b01#2 ++ rs2 ++ rs1 ++ rm ++ rd ++ 0b1001111#7)
  | .faddD rd rs1 rs2 rm => .full (0b0000001#7 ++ rs2 ++ rs1 ++ rm ++ rd ++ 0b1010011#7)
  | .fsubD rd rs1 rs2 rm => .full (0b0000101#7 ++ rs2 ++ rs1 ++ rm ++ rd ++ 0b1010011#7)
  | .fmulD rd rs1 rs2 rm => .full (0b0001001#7 ++ rs2 ++ rs1 ++ rm ++ rd ++ 0b1010011#7)
  | .fdivD rd rs1 rs2 rm => .full (0b0001101#7 ++ rs2 ++ rs1 ++ rm ++ rd ++ 0b1010011#7)
  | .fsqrtD rd rs1 rm => .full (0b010110100000#12 ++ rs1 ++ rm ++ rd ++ 0b1010011#7)
  | .fsgnjD rd rs1 rs2 => .full (0b0010001#7 ++ rs2 ++ rs1 ++ 0b000#3 ++ rd ++ 0b1010011#7)
  | .fsgnjnD rd rs1 rs2 => .full (0b0010001#7 ++ rs2 ++ rs1 ++ 0b001#3 ++ rd ++ 0b1010011#7)
  | .fsgnjxD rd rs1 rs2 => .full (0b0010001#7 ++ rs2 ++ rs1 ++ 0b010#3 ++ rd ++ 0b1010011#7)
  | .fminD rd rs1 rs2 => .full (0b0010101#7 ++ rs2 ++ rs1 ++ 0b000#3 ++ rd ++ 0b1010011#7)
  | .fmaxD rd rs1 rs2 => .full (0b0010101#7 ++ rs2 ++ rs1 ++ 0b001#3 ++ rd ++ 0b1010011#7)
  | .fcvtSD rd rs1 rm => .full (0b010000000001#12 ++ rs1 ++ rm ++ rd ++ 0b1010011#7)
  | .fcvtDS rd rs1 rm => .full (0b010000100000#12 ++ rs1 ++ rm ++ rd ++ 0b1010011#7)
  | .feqD rd rs1 rs2 => .full (0b1010001#7 ++ rs2 ++ rs1 ++ 0b010#3 ++ rd ++ 0b1010011#7)
  | .fltD rd rs1 rs2 => .full (0b1010001#7 ++ rs2 ++ rs1 ++ 0b001#3 ++ rd ++ 0b1010011#7)
  | .fleD rd rs1 rs2 => .full (0b1010001#7 ++ rs2 ++ rs1 ++ 0b000#3 ++ rd ++ 0b1010011#7)
  | .fclassD rd rs1 => .full (0b111000100000#12 ++ rs1 ++ 0b001#3 ++ rd ++ 0b1010011#7)
  | .fcvtWD rd rs1 rm => .full (0b110000100000#12 ++ rs1 ++ rm ++ rd ++ 0b1010011#7)
  | .fcvtWuD rd rs1 rm => .full (0b110000100001#12 ++ rs1 ++ rm ++ rd ++ 0b1010011#7)
  | .fcvtDW rd rs1 rm => .full (0b110100100000#12 ++ rs1 ++ rm ++ rd ++ 0b1010011#7)
  | .fcvtDWu rd rs1 rm => .full (0b110100100001#12 ++ rs1 ++ rm ++ rd ++ 0b1010011#7)
  | .fld rd rs1 imm => .full (imm ++ rs1 ++ 0b011#3 ++ rd ++ 0b0000111#7)
  | .fsd rs1 rs2 imm => .full (imm.extractLsb' 5 7 ++ rs2 ++ rs1 ++ 0b011#3 ++ imm.extractLsb' 0 5 ++ 0b0100111#7)
  | .fcvtLD rd rs1 rm => .full (0b110000100010#12 ++ rs1 ++ rm ++ rd ++ 0b1010011#7)
  | .fcvtLuD rd rs1 rm => .full (0b110000100011#12 ++ rs1 ++ rm ++ rd ++ 0b1010011#7)
  | .fmvXD rd rs1 => .full (0b111000100000#12 ++ rs1 ++ 0b000#3 ++ rd ++ 0b1010011#7)
  | .fcvtDL rd rs1 rm => .full (0b110100100010#12 ++ rs1 ++ rm ++ rd ++ 0b1010011#7)
  | .fcvtDLu rd rs1 rm => .full (0b110100100011#12 ++ rs1 ++ rm ++ rd ++ 0b1010011#7)
  | .fmvDX rd rs1 => .full (0b111100100000#12 ++ rs1 ++ 0b000#3 ++ rd ++ 0b1010011#7)
  | .fmaddH rd rs1 rs2 rs3 rm => .full (rs3 ++ 0b10#2 ++ rs2 ++ rs1 ++ rm ++ rd ++ 0b1000011#7)
  | .fmsubH rd rs1 rs2 rs3 rm => .full (rs3 ++ 0b10#2 ++ rs2 ++ rs1 ++ rm ++ rd ++ 0b1000111#7)
  | .fnmsubH rd rs1 rs2 rs3 rm => .full (rs3 ++ 0b10#2 ++ rs2 ++ rs1 ++ rm ++ rd ++ 0b1001011#7)
  | .fnmaddH rd rs1 rs2 rs3 rm => .full (rs3 ++ 0b10#2 ++ rs2 ++ rs1 ++ rm ++ rd ++ 0b1001111#7)
  | .faddH rd rs1 rs2 rm => .full (0b0000010#7 ++ rs2 ++ rs1 ++ rm ++ rd ++ 0b1010011#7)
  | .fsubH rd rs1 rs2 rm => .full (0b0000110#7 ++ rs2 ++ rs1 ++ rm ++ rd ++ 0b1010011#7)
  | .fmulH rd rs1 rs2 rm => .full (0b0001010#7 ++ rs2 ++ rs1 ++ rm ++ rd ++ 0b1010011#7)
  | .fdivH rd rs1 rs2 rm => .full (0b0001110#7 ++ rs2 ++ rs1 ++ rm ++ rd ++ 0b1010011#7)
  | .fsqrtH rd rs1 rm => .full (0b010111000000#12 ++ rs1 ++ rm ++ rd ++ 0b1010011#7)
  | .fsgnjH rd rs1 rs2 => .full (0b0010010#7 ++ rs2 ++ rs1 ++ 0b000#3 ++ rd ++ 0b1010011#7)
  | .fsgnjnH rd rs1 rs2 => .full (0b0010010#7 ++ rs2 ++ rs1 ++ 0b001#3 ++ rd ++ 0b1010011#7)
  | .fsgnjxH rd rs1 rs2 => .full (0b0010010#7 ++ rs2 ++ rs1 ++ 0b010#3 ++ rd ++ 0b1010011#7)
  | .fminH rd rs1 rs2 => .full (0b0010110#7 ++ rs2 ++ rs1 ++ 0b000#3 ++ rd ++ 0b1010011#7)
  | .fmaxH rd rs1 rs2 => .full (0b0010110#7 ++ rs2 ++ rs1 ++ 0b001#3 ++ rd ++ 0b1010011#7)
  | .fcvtSH rd rs1 rm => .full (0b010000000010#12 ++ rs1 ++ rm ++ rd ++ 0b1010011#7)
  | .fcvtHS rd rs1 rm => .full (0b010001000000#12 ++ rs1 ++ rm ++ rd ++ 0b1010011#7)
  | .fcvtDH rd rs1 rm => .full (0b010000100010#12 ++ rs1 ++ rm ++ rd ++ 0b1010011#7)
  | .fcvtHD rd rs1 rm => .full (0b010001000001#12 ++ rs1 ++ rm ++ rd ++ 0b1010011#7)
  | .fcvtQH rd rs1 rm => .full (0b010001100010#12 ++ rs1 ++ rm ++ rd ++ 0b1010011#7)
  | .fcvtHQ rd rs1 rm => .full (0b010001000011#12 ++ rs1 ++ rm ++ rd ++ 0b1010011#7)
  | .feqH rd rs1 rs2 => .full (0b1010010#7 ++ rs2 ++ rs1 ++ 0b010#3 ++ rd ++ 0b1010011#7)
  | .fltH rd rs1 rs2 => .full (0b1010010#7 ++ rs2 ++ rs1 ++ 0b001#3 ++ rd ++ 0b1010011#7)
  | .fleH rd rs1 rs2 => .full (0b1010010#7 ++ rs2 ++ rs1 ++ 0b000#3 ++ rd ++ 0b1010011#7)
  | .fclassH rd rs1 => .full (0b111001000000#12 ++ rs1 ++ 0b001#3 ++ rd ++ 0b1010011#7)
  | .fcvtWH rd rs1 rm => .full (0b110001000000#12 ++ rs1 ++ rm ++ rd ++ 0b1010011#7)
  | .fcvtWuH rd rs1 rm => .full (0b110001000001#12 ++ rs1 ++ rm ++ rd ++ 0b1010011#7)
  | .fmvXH rd rs1 => .full (0b111001000000#12 ++ rs1 ++ 0b000#3 ++ rd ++ 0b1010011#7)
  | .fcvtHW rd rs1 rm => .full (0b110101000000#12 ++ rs1 ++ rm ++ rd ++ 0b1010011#7)
  | .fcvtHWu rd rs1 rm => .full (0b110101000001#12 ++ rs1 ++ rm ++ rd ++ 0b1010011#7)
  | .fmvHX rd rs1 => .full (0b111101000000#12 ++ rs1 ++ 0b000#3 ++ rd ++ 0b1010011#7)
  | .flh rd rs1 imm => .full (imm ++ rs1 ++ 0b001#3 ++ rd ++ 0b0000111#7)
  | .fsh rs1 rs2 imm => .full (imm.extractLsb' 5 7 ++ rs2 ++ rs1 ++ 0b001#3 ++ imm.extractLsb' 0 5 ++ 0b0100111#7)
  | .fcvtLH rd rs1 rm => .full (0b110001000010#12 ++ rs1 ++ rm ++ rd ++ 0b1010011#7)
  | .fcvtLuH rd rs1 rm => .full (0b110001000011#12 ++ rs1 ++ rm ++ rd ++ 0b1010011#7)
  | .fcvtHL rd rs1 rm => .full (0b110101000010#12 ++ rs1 ++ rm ++ rd ++ 0b1010011#7)
  | .fcvtHLu rd rs1 rm => .full (0b110101000011#12 ++ rs1 ++ rm ++ rd ++ 0b1010011#7)
  | .cAddi4spn rd nzuimm =>
    .half (0b000#3 ++ nzuimm.extractLsb' 2 2 ++ nzuimm.extractLsb' 4 4 ++ nzuimm.extractLsb' 0 1 ++ nzuimm.extractLsb' 1 1 ++ rd ++ 0b00#2)
  | .cFld rd rs1 uimm => .half (0b001#3 ++ uimm.extractLsb' 0 3 ++ rs1 ++ uimm.extractLsb' 3 2 ++ rd ++ 0b00#2)
  | .cLw rd rs1 uimm =>
    .half (0b010#3 ++ uimm.extractLsb' 1 3 ++ rs1 ++ uimm.extractLsb' 0 1 ++ uimm.extractLsb' 4 1 ++ rd ++ 0b00#2)
  | .cFlw rd rs1 uimm =>
    .half (0b011#3 ++ uimm.extractLsb' 1 3 ++ rs1 ++ uimm.extractLsb' 0 1 ++ uimm.extractLsb' 4 1 ++ rd ++ 0b00#2)
  | .cLd rd rs1 uimm => .half (0b011#3 ++ uimm.extractLsb' 0 3 ++ rs1 ++ uimm.extractLsb' 3 2 ++ rd ++ 0b00#2)
  | .cFsd rs1 rs2 uimm => .half (0b101#3 ++ uimm.extractLsb' 0 3 ++ rs1 ++ uimm.extractLsb' 3 2 ++ rs2 ++ 0b00#2)
  | .cSw rs1 rs2 uimm =>
    .half (0b110#3 ++ uimm.extractLsb' 1 3 ++ rs1 ++ uimm.extractLsb' 0 1 ++ uimm.extractLsb' 4 1 ++ rs2 ++ 0b00#2)
  | .cFsw rs1 rs2 uimm =>
    .half (0b111#3 ++ uimm.extractLsb' 1 3 ++ rs1 ++ uimm.extractLsb' 0 1 ++ uimm.extractLsb' 4 1 ++ rs2 ++ 0b00#2)
  | .cSd rs1 rs2 uimm => .half (0b111#3 ++ uimm.extractLsb' 0 3 ++ rs1 ++ uimm.extractLsb' 3 2 ++ rs2 ++ 0b00#2)
  | .cNop imm => .half (0b000#3 ++ imm.extractLsb' 5 1 ++ 0b00000#5 ++ imm.extractLsb' 0 5 ++ 0b01#2)
  | .cAddi rd imm => .half (0b000#3 ++ imm.extractLsb' 5 1 ++ rd ++ imm.extractLsb' 0 5 ++ 0b01#2)
  | .cJal imm =>
    .half (0b001#3 ++ imm.extractLsb' 10 1 ++ imm.extractLsb' 3 1 ++ imm.extractLsb' 7 2 ++ imm.extractLsb' 9 1 ++ imm.extractLsb' 5 1 ++ imm.extractLsb' 6 1 ++ imm.extractLsb' 0 3 ++ imm.extractLsb' 4 1 ++ 0b01#2)
  | .cAddiw rd imm => .half (0b001#3 ++ imm.extractLsb' 5 1 ++ rd ++ imm.extractLsb' 0 5 ++ 0b01#2)
  | .cLi rd imm => .half (0b010#3 ++ imm.extractLsb' 5 1 ++ rd ++ imm.extractLsb' 0 5 ++ 0b01#2)
  | .cAddi16sp nzimm =>
    .half (0b011#3 ++ nzimm.extractLsb' 5 1 ++ 0b00010#5 ++ nzimm.extractLsb' 0 1 ++ nzimm.extractLsb' 2 1 ++ nzimm.extractLsb' 3 2 ++ nzimm.extractLsb' 1 1 ++ 0b01#2)
  | .cLui rd nzimm => .half (0b011#3 ++ nzimm.extractLsb' 5 1 ++ rd ++ nzimm.extractLsb' 0 5 ++ 0b01#2)
  | .cSrli rd shamt => .half (0b100#3 ++ shamt.extractLsb' 5 1 ++ 0b00#2 ++ rd ++ shamt.extractLsb' 0 5 ++ 0b01#2)
  | .cSrai rd shamt => .half (0b100#3 ++ shamt.extractLsb' 5 1 ++ 0b01#2 ++ rd ++ shamt.extractLsb' 0 5 ++ 0b01#2)
  | .cAndi rd imm => .half (0b100#3 ++ imm.extractLsb' 5 1 ++ 0b10#2 ++ rd ++ imm.extractLsb' 0 5 ++ 0b01#2)
  | .cSub rd rs2 => .half (0b100011#6 ++ rd ++ 0b00#2 ++ rs2 ++ 0b01#2)
  | .cXor rd rs2 => .half (0b100011#6 ++ rd ++ 0b01#2 ++ rs2 ++ 0b01#2)
  | .cOr rd rs2 => .half (0b100011#6 ++ rd ++ 0b10#2 ++ rs2 ++ 0b01#2)
  | .cAnd rd rs2 => .half (0b100011#6 ++ rd ++ 0b11#2 ++ rs2 ++ 0b01#2)
  | .cSubw rd rs2 => .half (0b100111#6 ++ rd ++ 0b00#2 ++ rs2 ++ 0b01#2)
  | .cAddw rd rs2 => .half (0b100111#6 ++ rd ++ 0b01#2 ++ rs2 ++ 0b01#2)
  | .cJ imm =>
    .half (0b101#3 ++ imm.extractLsb' 10 1 ++ imm.extractLsb' 3 1 ++ imm.extractLsb' 7 2 ++ imm.extractLsb' 9 1 ++ imm.extractLsb' 5 1 ++ imm.extractLsb' 6 1 ++ imm.extractLsb' 0 3 ++ imm.extractLsb' 4 1 ++ 0b01#2)
  | .cBeqz rs1 imm =>
    .half (0b110#3 ++ imm.extractLsb' 7 1 ++ imm.extractLsb' 2 2 ++ rs1 ++ imm.extractLsb' 5 2 ++ imm.extractLsb' 0 2 ++ imm.extractLsb' 4 1 ++ 0b01#2)
  | .cBnez rs1 imm =>
    .half (0b111#3 ++ imm.extractLsb' 7 1 ++ imm.extractLsb' 2 2 ++ rs1 ++ imm.extractLsb' 5 2 ++ imm.extractLsb' 0 2 ++ imm.extractLsb' 4 1 ++ 0b01#2)
  | .cSlli rd shamt => .half (0b000#3 ++ shamt.extractLsb' 5 1 ++ rd ++ shamt.extractLsb' 0 5 ++ 0b10#2)
  | .cFldsp rd uimm => .half (0b001#3 ++ uimm.extractLsb' 2 1 ++ rd ++ uimm.extractLsb' 0 2 ++ uimm.extractLsb' 3 3 ++ 0b10#2)
  | .cLwsp rd uimm => .half (0b010#3 ++ uimm.extractLsb' 3 1 ++ rd ++ uimm.extractLsb' 0 3 ++ uimm.extractLsb' 4 2 ++ 0b10#2)
  | .cFlwsp rd uimm => .half (0b011#3 ++ uimm.extractLsb' 3 1 ++ rd ++ uimm.extractLsb' 0 3 ++ uimm.extractLsb' 4 2 ++ 0b10#2)
  | .cLdsp rd uimm => .half (0b011#3 ++ uimm.extractLsb' 2 1 ++ rd ++ uimm.extractLsb' 0 2 ++ uimm.extractLsb' 3 3 ++ 0b10#2)
  | .cJr rs1 => .half (0b1000#4 ++ rs1 ++ 0b0000010#7)
  | .cMv rd rs2 => .half (0b1000#4 ++ rd ++ rs2 ++ 0b10#2)
  | .cEbreak => .half (0b1001000000000010#16)
  | .cJalr rs1 => .half (0b1001#4 ++ rs1 ++ 0b0000010#7)
  | .cAdd rd rs2 => .half (0b1001#4 ++ rd ++ rs2 ++ 0b10#2)
  | .cFsdsp rs2 uimm => .half (0b101#3 ++ uimm.extractLsb' 0 3 ++ uimm.extractLsb' 3 3 ++ rs2 ++ 0b10#2)
  | .cSwsp rs2 uimm => .half (0b110#3 ++ uimm.extractLsb' 0 4 ++ uimm.extractLsb' 4 2 ++ rs2 ++ 0b10#2)
  | .cFswsp rs2 uimm => .half (0b111#3 ++ uimm.extractLsb' 0 4 ++ uimm.extractLsb' 4 2 ++ rs2 ++ 0b10#2)
  | .cSdsp rs2 uimm => .half (0b111#3 ++ uimm.extractLsb' 0 3 ++ uimm.extractLsb' 3 3 ++ rs2 ++ 0b10#2)
  | .cLbu rd rs1 uimm => .half (0b100000#6 ++ rs1 ++ uimm.extractLsb' 0 1 ++ uimm.extractLsb' 1 1 ++ rd ++ 0b00#2)
  | .cLhu rd rs1 uimm => .half (0b100001#6 ++ rs1 ++ 0b0#1 ++ uimm ++ rd ++ 0b00#2)
  | .cLh rd rs1 uimm => .half (0b100001#6 ++ rs1 ++ 0b1#1 ++ uimm ++ rd ++ 0b00#2)
  | .cSb rs1 rs2 uimm => .half (0b100010#6 ++ rs1 ++ uimm.extractLsb' 0 1 ++ uimm.extractLsb' 1 1 ++ rs2 ++ 0b00#2)
  | .cSh rs1 rs2 uimm => .half (0b100011#6 ++ rs1 ++ 0b0#1 ++ uimm ++ rs2 ++ 0b00#2)
  | .cZextB rsd => .half (0b100111#6 ++ rsd ++ 0b1100001#7)
  | .cSextB rsd => .half (0b100111#6 ++ rsd ++ 0b1100101#7)
  | .cZextH rsd => .half (0b100111#6 ++ rsd ++ 0b1101001#7)
  | .cSextH rsd => .half (0b100111#6 ++ rsd ++ 0b1101101#7)
  | .cZextW rsd => .half (0b100111#6 ++ rsd ++ 0b1110001#7)
  | .cNot rsd => .half (0b100111#6 ++ rsd ++ 0b1110101#7)
  | .cMul rsd rs2 => .half (0b100111#6 ++ rsd ++ 0b10#2 ++ rs2 ++ 0b01#2)
  | .cmPush rlist spimm => .half (0b10111000#8 ++ rlist ++ spimm ++ 0b10#2)
  | .cmPop rlist spimm => .half (0b10111010#8 ++ rlist ++ spimm ++ 0b10#2)
  | .cmPopretz rlist spimm => .half (0b10111100#8 ++ rlist ++ spimm ++ 0b10#2)
  | .cmPopret rlist spimm => .half (0b10111110#8 ++ rlist ++ spimm ++ 0b10#2)
  | .cmMvsa01 r1s r2s => .half (0b101011#6 ++ r1s ++ 0b01#2 ++ r2s ++ 0b10#2)
  | .cmMva01s r1s r2s => .half (0b101011#6 ++ r1s ++ 0b11#2 ++ r2s ++ 0b10#2)
  | .cmJt index => .half (0b101000#6 ++ index ++ 0b10#2)
  | .cmJalt index => .half (0b101000#6 ++ index ++ 0b10#2)
  | .mul rd rs1 rs2 => .full (0b0000001#7 ++ rs2 ++ rs1 ++ 0b000#3 ++ rd ++ 0b0110011#7)
  | .mulh rd rs1 rs2 => .full (0b0000001#7 ++ rs2 ++ rs1 ++ 0b001#3 ++ rd ++ 0b0110011#7)
  | .mulhsu rd rs1 rs2 => .full (0b0000001#7 ++ rs2 ++ rs1 ++ 0b010#3 ++ rd ++ 0b0110011#7)
  | .mulhu rd rs1 rs2 => .full (0b0000001#7 ++ rs2 ++ rs1 ++ 0b011#3 ++ rd ++ 0b0110011#7)
  | .div rd rs1 rs2 => .full (0b0000001#7 ++ rs2 ++ rs1 ++ 0b100#3 ++ rd ++ 0b0110011#7)
  | .divu rd rs1 rs2 => .full (0b0000001#7 ++ rs2 ++ rs1 ++ 0b101#3 ++ rd ++ 0b0110011#7)
  | .rem rd rs1 rs2 => .full (0b0000001#7 ++ rs2 ++ rs1 ++ 0b110#3 ++ rd ++ 0b0110011#7)
  | .remu rd rs1 rs2 => .full (0b0000001#7 ++ rs2 ++ rs1 ++ 0b111#3 ++ rd ++ 0b0110011#7)
  | .mulw rd rs1 rs2 => .full (0b0000001#7 ++ rs2 ++ rs1 ++ 0b000#3 ++ rd ++ 0b0111011#7)
  | .divw rd rs1 rs2 => .full (0b0000001#7 ++ rs2 ++ rs1 ++ 0b100#3 ++ rd ++ 0b0111011#7)
  | .divuw rd rs1 rs2 => .full (0b0000001#7 ++ rs2 ++ rs1 ++ 0b101#3 ++ rd ++ 0b0111011#7)
  | .remw rd rs1 rs2 => .full (0b0000001#7 ++ rs2 ++ rs1 ++ 0b110#3 ++ rd ++ 0b0111011#7)
  | .remuw rd rs1 rs2 => .full (0b0000001#7 ++ rs2 ++ rs1 ++ 0b111#3 ++ rd ++ 0b0111011#7)
  | .lrW rd rs1 aq rl => .full (0b00010#5 ++ aq ++ rl ++ 0b00000#5 ++ rs1 ++ 0b010#3 ++ rd ++ 0b0101111#7)
  | .scW rd rs1 rs2 aq rl => .full (0b00011#5 ++ aq ++ rl ++ rs2 ++ rs1 ++ 0b010#3 ++ rd ++ 0b0101111#7)
  | .amoswapW rd rs1 rs2 aq rl => .full (0b00001#5 ++ aq ++ rl ++ rs2 ++ rs1 ++ 0b010#3 ++ rd ++ 0b0101111#7)
  | .amoaddW rd rs1 rs2 aq rl => .full (0b00000#5 ++ aq ++ rl ++ rs2 ++ rs1 ++ 0b010#3 ++ rd ++ 0b0101111#7)
  | .amoxorW rd rs1 rs2 aq rl => .full (0b00100#5 ++ aq ++ rl ++ rs2 ++ rs1 ++ 0b010#3 ++ rd ++ 0b0101111#7)
  | .amoandW rd rs1 rs2 aq rl => .full (0b01100#5 ++ aq ++ rl ++ rs2 ++ rs1 ++ 0b010#3 ++ rd ++ 0b0101111#7)
  | .amoorW rd rs1 rs2 aq rl => .full (0b01000#5 ++ aq ++ rl ++ rs2 ++ rs1 ++ 0b010#3 ++ rd ++ 0b0101111#7)
  | .amominW rd rs1 rs2 aq rl => .full (0b10000#5 ++ aq ++ rl ++ rs2 ++ rs1 ++ 0b010#3 ++ rd ++ 0b0101111#7)
  | .amomaxW rd rs1 rs2 aq rl => .full (0b10100#5 ++ aq ++ rl ++ rs2 ++ rs1 ++ 0b010#3 ++ rd ++ 0b0101111#7)
  | .amominuW rd rs1 rs2 aq rl => .full (0b11000#5 ++ aq ++ rl ++ rs2 ++ rs1 ++ 0b010#3 ++ rd ++ 0b0101111#7)
  | .amomaxuW rd rs1 rs2 aq rl => .full (0b11100#5 ++ aq ++ rl ++ rs2 ++ rs1 ++ 0b010#3 ++ rd ++ 0b0101111#7)
  | .lrD rd rs1 aq rl => .full (0b00010#5 ++ aq ++ rl ++ 0b00000#5 ++ rs1 ++ 0b011#3 ++ rd ++ 0b0101111#7)
  | .scD rd rs1 rs2 aq rl => .full (0b00011#5 ++ aq ++ rl ++ rs2 ++ rs1 ++ 0b011#3 ++ rd ++ 0b0101111#7)
  | .amoswapD rd rs1 rs2 aq rl => .full (0b00001#5 ++ aq ++ rl ++ rs2 ++ rs1 ++ 0b011#3 ++ rd ++ 0b0101111#7)
  | .amoaddD rd rs1 rs2 aq rl => .full (0b00000#5 ++ aq ++ rl ++ rs2 ++ rs1 ++ 0b011#3 ++ rd ++ 0b0101111#7)
  | .amoxorD rd rs1 rs2 aq rl => .full (0b00100#5 ++ aq ++ rl ++ rs2 ++ rs1 ++ 0b011#3 ++ rd ++ 0b0101111#7)
  | .amoandD rd rs1 rs2 aq rl => .full (0b01100#5 ++ aq ++ rl ++ rs2 ++ rs1 ++ 0b011#3 ++ rd ++ 0b0101111#7)
  | .amoorD rd rs1 rs2 aq rl => .full (0b01000#5 ++ aq ++ rl ++ rs2 ++ rs1 ++ 0b011#3 ++ rd ++ 0b0101111#7)
  | .amominD rd rs1 rs2 aq rl => .full (0b10000#5 ++ aq ++ rl ++ rs2 ++ rs1 ++ 0b011#3 ++ rd ++ 0b0101111#7)
  | .amomaxD rd rs1 rs2 aq rl => .full (0b10100#5 ++ aq ++ rl ++ rs2 ++ rs1 ++ 0b011#3 ++ rd ++ 0b0101111#7)
  | .amominuD rd rs1 rs2 aq rl => .full (0b11000#5 ++ aq ++ rl ++ rs2 ++ rs1 ++ 0b011#3 ++ rd ++ 0b0101111#7)
  | .amomaxuD rd rs1 rs2 aq rl => .full (0b11100#5 ++ aq ++ rl ++ rs2 ++ rs1 ++ 0b011#3 ++ rd ++ 0b0101111#7)
  | .addUw rd rs1 rs2 => .full (0b0000100#7 ++ rs2 ++ rs1 ++ 0b000#3 ++ rd ++ 0b0111011#7)
  | .sh1add rd rs1 rs2 => .full (0b0010000#7 ++ rs2 ++ rs1 ++ 0b010#3 ++ rd ++ 0b0110011#7)
  | .sh1addUw rd rs1 rs2 => .full (0b0010000#7 ++ rs2 ++ rs1 ++ 0b010#3 ++ rd ++ 0b0111011#7)
  | .sh2add rd rs1 rs2 => .full (0b0010000#7 ++ rs2 ++ rs1 ++ 0b100#3 ++ rd ++ 0b0110011#7)
  | .sh2addUw rd rs1 rs2 => .full (0b0010000#7 ++ rs2 ++ rs1 ++ 0b100#3 ++ rd ++ 0b0111011#7)
  | .sh3add rd rs1 rs2 => .full (0b0010000#7 ++ rs2 ++ rs1 ++ 0b110#3 ++ rd ++ 0b0110011#7)
  | .sh3addUw rd rs1 rs2 => .full (0b0010000#7 ++ rs2 ++ rs1 ++ 0b110#3 ++ rd ++ 0b0111011#7)
  | .slliUw rd rs1 shamt => .full (0b000010#6 ++ shamt ++ rs1 ++ 0b001#3 ++ rd ++ 0b0011011#7)
  | .andn rd rs1 rs2 => .full (0b0100000#7 ++ rs2 ++ rs1 ++ 0b111#3 ++ rd ++ 0b0110011#7)
  | .orn rd rs1 rs2 => .full (0b0100000#7 ++ rs2 ++ rs1 ++ 0b110#3 ++ rd ++ 0b0110011#7)
  | .xnor rd rs1 rs2 => .full (0b0100000#7 ++ rs2 ++ rs1 ++ 0b100#3 ++ rd ++ 0b0110011#7)
  | .clz rd rs1 => .full (0b011000000000#12 ++ rs1 ++ 0b001#3 ++ rd ++ 0b0010011#7)
  | .clzw rd rs1 => .full (0b011000000000#12 ++ rs1 ++ 0b001#3 ++ rd ++ 0b0011011#7)
  | .ctz rd rs1 => .full (0b011000000001#12 ++ rs1 ++ 0b001#3 ++ rd ++ 0b0010011#7)
  | .ctzw rd rs1 => .full (0b011000000001#12 ++ rs1 ++ 0b001#3 ++ rd ++ 0b0011011#7)
  | .cpop rd rs1 => .full (0b011000000010#12 ++ rs1 ++ 0b001#3 ++ rd ++ 0b0010011#7)
  | .cpopw rd rs1 => .full (0b011000000010#12 ++ rs1 ++ 0b001#3 ++ rd ++ 0b0011011#7)
  | .max rd rs1 rs2 => .full (0b0000101#7 ++ rs2 ++ rs1 ++ 0b110#3 ++ rd ++ 0b0110011#7)
  | .maxu rd rs1 rs2 => .full (0b0000101#7 ++ rs2 ++ rs1 ++ 0b111#3 ++ rd ++ 0b0110011#7)
  | .min rd rs1 rs2 => .full (0b0000101#7 ++ rs2 ++ rs1 ++ 0b100#3 ++ rd ++ 0b0110011#7)
  | .minu rd rs1 rs2 => .full (0b0000101#7 ++ rs2 ++ rs1 ++ 0b101#3 ++ rd ++ 0b0110011#7)
  | .sextB rd rs1 => .full (0b011000000100#12 ++ rs1 ++ 0b001#3 ++ rd ++ 0b0010011#7)
  | .sextH rd rs1 => .full (0b011000000101#12 ++ rs1 ++ 0b001#3 ++ rd ++ 0b0010011#7)
  | .zextHRv32 rd rs1 => .full (0b000010000000#12 ++ rs1 ++ 0b100#3 ++ rd ++ 0b0110011#7)
  | .zextHRv64 rd rs1 => .full (0b000010000000#12 ++ rs1 ++ 0b100#3 ++ rd ++ 0b0111011#7)
  | .rol rd rs1 rs2 => .full (0b0110000#7 ++ rs2 ++ rs1 ++ 0b001#3 ++ rd ++ 0b0110011#7)
  | .rolw rd rs1 rs2 => .full (0b0110000#7 ++ rs2 ++ rs1 ++ 0b001#3 ++ rd ++ 0b0111011#7)
  | .ror rd rs1 rs2 => .full (0b0110000#7 ++ rs2 ++ rs1 ++ 0b101#3 ++ rd ++ 0b0110011#7)
  | .rori rd rs1 shamt => .full (0b011000#6 ++ shamt ++ rs1 ++ 0b101#3 ++ rd ++ 0b0010011#7)
  | .roriw rd rs1 shamt => .full (0b0110000#7 ++ shamt ++ rs1 ++ 0b101#3 ++ rd ++ 0b0011011#7)
  | .rorw rd rs1 rs2 => .full (0b0110000#7 ++ rs2 ++ rs1 ++ 0b101#3 ++ rd ++ 0b0111011#7)
  | .orcB rd rs1 => .full (0b001010000111#12 ++ rs1 ++ 0b101#3 ++ rd ++ 0b0010011#7)
  | .rev8Rv32 rd rs1 => .full (0b011010011000#12 ++ rs1 ++ 0b101#3 ++ rd ++ 0b0010011#7)
  | .rev8Rv64 rd rs1 => .full (0b011010111000#12 ++ rs1 ++ 0b101#3 ++ rd ++ 0b0010011#7)
  | .clmul rd rs1 rs2 => .full (0b0000101#7 ++ rs2 ++ rs1 ++ 0b001#3 ++ rd ++ 0b0110011#7)
  | .clmulh rd rs1 rs2 => .full (0b0000101#7 ++ rs2 ++ rs1 ++ 0b011#3 ++ rd ++ 0b0110011#7)
  | .clmulr rd rs1 rs2 => .full (0b0000101#7 ++ rs2 ++ rs1 ++ 0b010#3 ++ rd ++ 0b0110011#7)
  | .bclr rd rs1 rs2 => .full (0b0100100#7 ++ rs2 ++ rs1 ++ 0b001#3 ++ rd ++ 0b0110011#7)
  | .bclri rd rs1 shamt => .full (0b010010#6 ++ shamt ++ rs1 ++ 0b001#3 ++ rd ++ 0b0010011#7)
  | .bext rd rs1 rs2 => .full (0b0100100#7 ++ rs2 ++ rs1 ++ 0b101#3 ++ rd ++ 0b0110011#7)
  | .bexti rd rs1 shamt => .full (0b010010#6 ++ shamt ++ rs1 ++ 0b101#3 ++ rd ++ 0b0010011#7)
  | .binv rd rs1 rs2 => .full (0b0110100#7 ++ rs2 ++ rs1 ++ 0b001#3 ++ rd ++ 0b0110011#7)
  | .binvi rd rs1 shamt => .full (0b011010#6 ++ shamt ++ rs1 ++ 0b001#3 ++ rd ++ 0b0010011#7)
  | .bset rd rs1 rs2 => .full (0b0010100#7 ++ rs2 ++ rs1 ++ 0b001#3 ++ rd ++ 0b0110011#7)
  | .bseti rd rs1 shamt => .full (0b001010#6 ++ shamt ++ rs1 ++ 0b001#3 ++ rd ++ 0b0010011#7)

/-- The trap value of illegal-instruction for `i`: its bits, zero-extended (60_exceptions.md R603). -/
def Instr.bits (i : Instr) : Word := i.encode.bits

/-- The length of an instruction in bytes, as an amount of pc: 4 or 2 (10_state.md R26). -/
def Instr.size (i : Instr) : Nat := i.encode.size

end Sys2Proof
end

