-- ==== Sys2Proof/Machine/State.lean ====
section
/-! DEFINITION. The state of the hart (10_state.md R20 to R45) as plain data, the reasons a run can stop, and the state after
reset. -/

namespace Sys2Proof.Machine

/-- The privilege modes (10_state.md R39). -/
inductive Priv where
  | U
  | S
  | M
  deriving DecidableEq, Repr

/-- The modelled fields of mstatus (10_state.md R34). SD is computed from FS; sstatus is a view of the same fields. -/
structure Mstatus where
  /-- Bit 1. -/
  sie : Bool
  /-- Bit 3. -/
  mie : Bool
  /-- Bit 5. -/
  spie : Bool
  /-- Bit 7. -/
  mpie : Bool
  /-- Bit 8: true is S, false is U. -/
  spp : Bool
  /-- Bits 12:11: only the three modes can be held. -/
  mpp : Priv
  /-- Bits 14:13: 0 Off, 1 Initial, 2 Clean, 3 Dirty. -/
  fs : BitVec 2
  /-- Bit 17. -/
  mprv : Bool
  /-- Bit 20. -/
  tvm : Bool
  /-- Bit 21. -/
  tw : Bool
  /-- Bit 22. -/
  tsr : Bool
  deriving DecidableEq, Repr

/-- A load reservation: the address and the size, 4 or 8 (10_state.md R40). -/
structure Reservation where
  addr : Word
  size : Nat
  deriving DecidableEq, Repr

/-- Memory: the bytes that have a value, by address (10_state.md R43). The canonical form is `Memory.wf`: addresses strictly
rising. An unlisted address has no value (R44, R45; log 4). -/
abbrev Memory := List Host.Cell

/-- The synchronous exceptions (60_exceptions.md R600). -/
inductive Exc where
  | instrAddrMisaligned
  | instrAccessFault
  | illegalInstruction
  | breakpoint
  | loadAddrMisaligned
  | loadAccessFault
  | storeAddrMisaligned
  | storeAccessFault
  | ecallU
  | ecallS
  | ecallM
  deriving DecidableEq, Repr

/-- The hart. `cfg` holds the parameters, which no step changes; `draws` is the model's own field (log 5). -/
structure State where
  /-- The parameters of the machine (00_scope.md R5 to R7). -/
  cfg : Config
  /-- x0 to x31 (10_state.md R20); entry 0 is never read or written. -/
  x : Vector Word 32
  /-- f0 to f31 (10_state.md R28). -/
  f : Vector Word 32
  /-- The address of the instruction being executed (10_state.md R25). -/
  pc : Word
  /-- The privilege mode (10_state.md R39). -/
  priv : Priv
  /-- fcsr[4:0]: NV, DZ, OF, UF, NX from bit 4 to bit 0 (10_state.md R31). -/
  fflags : BitVec 5
  /-- fcsr[7:5] (10_state.md R31). -/
  frm : BitVec 3
  /-- 10_state.md R34. -/
  mstatus : Mstatus
  /-- 10_state.md R37. -/
  mtvec : Word
  /-- 10_state.md R33. -/
  mscratch : Word
  /-- 10_state.md R35. -/
  mepc : Word
  /-- 10_state.md R36. -/
  mcause : Word
  /-- 10_state.md R36. -/
  mtval : Word
  /-- 10_state.md R37. -/
  stvec : Word
  /-- 10_state.md R33. -/
  sscratch : Word
  /-- 10_state.md R35. -/
  sepc : Word
  /-- 10_state.md R36. -/
  scause : Word
  /-- 10_state.md R36. -/
  stval : Word
  /-- 10_state.md R38. -/
  jvt : Word
  /-- 10_state.md R40. -/
  reservation : Option Reservation
  /-- The fetch-coherence set, strictly rising (10_state.md R42). -/
  stale : List Nat
  /-- 10_state.md R43. -/
  mem : Memory
  /-- The number of free values drawn so far (log 5). -/
  draws : Nat
  deriving DecidableEq, Repr

/-- Why a run ends: the outcomes of 60_exceptions.md R628, each with what the rule shows of it. -/
inductive Fault where
  /-- `Trap(cause, epc, tval)`: an exception under trap delivery `environment` (60_exceptions.md R613), with the state it leaves:
  that of before the instruction, but for the accesses a push or pop has made (R612). Raised by every exception in that mode.
  Safe: it is the outcome the spec gives. -/
  | trap (cause : Exc) (epc tval : Word) (final : State)
  /-- `Halted(state)`: HALT holds before a fetch under trap delivery `machine` (60_exceptions.md R628). Raised by the step.
  Safe. -/
  | halted (final : State)
  /-- `ReadOfUnspecified`: a data access, a fetch or a jump-table read needs a byte of memory that nothing has given a value
  (10_state.md R45); `addr` is the first such byte (DESIGN CHOICE, log 18). Safe: the hardware goes on with some value, the model
  stops. -/
  | readOfUnspecified (addr : Nat)
  /-- `StaleFetch`: a fetch or a jump-table read touches a byte this hart has stored to since its last fence.i
  (20_memory.md R79); `addr` is the first such byte (DESIGN CHOICE, log 18). Safe: the hardware goes on with the old or the new
  byte, the model stops. -/
  | staleFetch (addr : Nat)
  deriving DecidableEq, Repr

/-- Why the model does not answer. -/
inductive Refusal where
  /-- The instruction has no meaning in this model. Raised by the arm of an instruction not yet modelled. Safe. -/
  | notModelled (mnemonic : String)
  /-- `UnmodelledCSR`: a CSR instruction names an address the spec does not describe (60_exceptions.md R622, step 4). Raised by
  the six CSR instructions. Safe. -/
  | unmodelledCsr (addr : CsrAddr)
  deriving DecidableEq, Repr

/-- The outcome of a step or of an instruction. -/
abbrev Result := Host.Outcome State Fault Refusal

/-- Why an instruction does not complete: it raises an exception with a trap value, or the run ends. -/
inductive Stop where
  | exc (cause : Exc) (tval : Word)
  | fault (reason : Fault)
  | refuse (reason : Refusal)
  deriving DecidableEq, Repr

/-- The implemented CSRs (10_state.md R33). -/
inductive Csr where
  | fflags | frm | fcsr | jvt
  | sstatus | stvec | sscratch | sepc | scause | stval
  | mstatus | mtvec | mscratch | mepc | mcause | mtval
  deriving DecidableEq, Repr

/-- The kinds of memory access, by the permissions they need and the exceptions they raise (20_memory.md R69). -/
inductive AccessKind where
  | load
  | store
  | atomic
  | execute
  deriving DecidableEq, Repr

/-- The rounding directions of 44_f_single.md R302. -/
inductive RoundingMode where
  | rne | rtz | rdn | rup | rmm
  deriving DecidableEq, Repr

/-- The floating-point formats of 44_f_single.md R300. -/
inductive FloatFormat where
  | H | S | D
  deriving DecidableEq, Repr

/-- mstatus after reset: MIE and MPRV are 0 (10_state.md R44); the other fields are 0 by DESIGN CHOICE (log 3). -/
def Mstatus.reset : Mstatus where
  sie := false
  mie := false
  spie := false
  mpie := false
  spp := false
  mpp := .U
  fs := 0
  mprv := false
  tvm := false
  tw := false
  tsr := false

/-- The hart after reset with the given parameters (10_state.md R44, 70_reset_and_hazards.md R650): pc is RESET_PC, the mode is
M, no reservation, an empty fetch-coherence set, no byte of memory with a value. Registers the spec gives no reset value are 0
by DESIGN CHOICE (log 3). -/
def State.resetWith (cfg : Config) : State where
  cfg := cfg
  x := Vector.replicate 32 0
  f := Vector.replicate 32 0
  pc := cfg.resetPc
  priv := .M
  fflags := 0
  frm := 0
  mstatus := Mstatus.reset
  mtvec := 0
  mscratch := 0
  mepc := 0
  mcause := 0
  mtval := 0
  stvec := 0
  sscratch := 0
  sepc := 0
  scause := 0
  stval := 0
  jvt := 0
  reservation := none
  stale := []
  mem := []
  draws := 0

/-- The hart after reset with the parameters of `Config.default` (log 1). -/
def State.reset : State := State.resetWith Config.default

end Sys2Proof.Machine
end

