-- ==== Sys2Proof/Machine/Operands.lean ====
section
/-! DEFINITION. Operand forms: values of XLEN bits held in 64 (log 2), immediates, register fields, and the reading and writing
of the integer and floating-point registers. -/

namespace Sys2Proof.Machine

/-- The low XLEN bits of a value, zero-extended: the form every XLEN-bit value is held in (log 2). -/
def cut (xlen : Xlen) (w : Word) : Word :=
  match xlen with
  | .rv32 => (w.setWidth 32).setWidth 64
  | .rv64 => w

/-- The low FLEN bits of a value, zero-extended (10_state.md R28). -/
def cutF (ext : Ext) (w : Word) : Word :=
  if ext.d then w else (w.setWidth 32).setWidth 64

/-- An operation on one XLEN-bit value, given once for every width. -/
def lift1 (xlen : Xlen) (op : ∀ n, BitVec n → BitVec n) (a : Word) : Word :=
  match xlen with
  | .rv32 => (op 32 (a.setWidth 32)).setWidth 64
  | .rv64 => op 64 a

/-- An operation on two XLEN-bit values, given once for every width. -/
def lift2 (xlen : Xlen) (op : ∀ n, BitVec n → BitVec n → BitVec n) (a b : Word) : Word :=
  match xlen with
  | .rv32 => (op 32 (a.setWidth 32) (b.setWidth 32)).setWidth 64
  | .rv64 => op 64 a b

/-- A test of two XLEN-bit values, given once for every width. -/
def test2 (xlen : Xlen) (op : ∀ n, BitVec n → BitVec n → Bool) (a b : Word) : Bool :=
  match xlen with
  | .rv32 => op 32 (a.setWidth 32) (b.setWidth 32)
  | .rv64 => op 64 a b

/-- `sext_XLEN` of a value of any width up to 64 (00_scope.md R9). -/
def sext {n : Nat} (xlen : Xlen) (v : BitVec n) : Word := cut xlen (v.signExtend 64)

/-- `zext_XLEN` of a value of any width up to XLEN (00_scope.md R9). -/
def zext {n : Nat} (v : BitVec n) : Word := v.setWidth 64

/-- The integer 1 or 0 of a truth value, XLEN bits wide. -/
def ofBool (b : Bool) : Word := if b then 1#64 else 0#64

/-- A 32-bit operation on the low words of two registers, its result sign-extended: the form of the `w` instructions of RV64
(41_base_memory_control_rv64i.md R206 to R214). -/
def word2 (xlen : Xlen) (op : BitVec 32 → BitVec 32 → BitVec 32) (a b : Word) : Word :=
  sext xlen (op (a.setWidth 32) (b.setWidth 32))

/-- A shift amount taken from a register: its low log2(n) bits, n the width shifted (40_base_compute_system.md R163). -/
def amount {n : Nat} (b : BitVec n) : Nat := b.toNat % n

/-- The integer register a 3-bit field names: x8 to x15 (10_state.md R24, 46_c_compressed.md R391). The floating-point
loads and stores read the same field as f8 to f15. -/
def creg (c : CRegIdx) : RegIdx := 0b01#2 ++ c

/-- The s register a 3-bit field of cm.mvsa01 and cm.mva01s names: x8, x9, then x18 to x23 (49_zc_code_size.md R554). -/
def sreg (c : CRegIdx) : RegIdx := if c.toNat < 2 then 0b01#2 ++ c else 0b10#2 ++ c

/-- x1, the return address `ra` (10_state.md R22). -/
def ra : RegIdx := 1#5

/-- x2, the stack pointer `sp` (10_state.md R22). -/
def sp : RegIdx := 2#5

/-- x10, `a0` (10_state.md R22). -/
def a0 : RegIdx := 10#5

/-- x11, `a1` (10_state.md R22). -/
def a1 : RegIdx := 11#5

/-- XLEN of the machine the hart is. -/
def State.xlen (s : State) : Xlen := s.cfg.xlen

/-- Reading an integer register: x0 is zero (10_state.md R20, R21). -/
def State.getX (s : State) (r : RegIdx) : Word :=
  if r = 0#5 then 0#64 else cut s.cfg.xlen (s.x[r.toNat]'r.isLt)

/-- Writing an integer register: a write to x0 is discarded (10_state.md R20, R21). -/
def State.setX (s : State) (r : RegIdx) (v : Word) : State :=
  if r = 0#5 then s else { s with x := s.x.set r.toNat (cut s.cfg.xlen v) r.isLt }

/-- Reading the FLEN bits of a floating-point register (10_state.md R28). -/
def State.getF (s : State) (r : RegIdx) : Word := cutF s.cfg.ext (s.f[r.toNat]'r.isLt)

/-- mstatus.FS after an instruction that wrote an f register or wrote or OR-ed into fcsr: Dirty, under trap delivery `machine`
only (10_state.md R34). -/
def State.dirtyFs (s : State) : State :=
  match s.cfg.trapDelivery with
  | .machine => { s with mstatus := { s.mstatus with fs := 3#2 } }
  | .environment => s

/-- Writing the FLEN bits of a floating-point register (10_state.md R28, R34). -/
def State.setF (s : State) (r : RegIdx) (v : Word) : State :=
  { s.dirtyFs with f := s.f.set r.toNat (cutF s.cfg.ext v) r.isLt }

/-- pc moved past an instruction of n bytes (10_state.md R26). -/
def State.advance (s : State) (n : Nat) : State :=
  { s with pc := cut s.cfg.xlen (s.pc + BitVec.ofNat 64 n) }

/-- Writing an integer register and moving past an instruction of n bytes. -/
def State.writeX (s : State) (n : Nat) (rd : RegIdx) (v : Word) : State := (s.setX rd v).advance n

/-- An effective address: base plus offset modulo 2^XLEN (20_memory.md R71). -/
def effAddr (xlen : Xlen) (base offset : Word) : Word := cut xlen (base + offset)

/-- The fresh free value (log 5). -/
def State.free (s : State) : Word := Config.freeWord s.draws

/-- The hart after one free value has been drawn (log 5). -/
def State.drawn (s : State) : State := { s with draws := s.draws + 1 }

end Sys2Proof.Machine
end

