-- ==== Sys2Proof/Machine/Flags.lean ====
section
/-! DEFINITION. The floating-point flags and the rounding mode (10_state.md R31, 44_f_single.md R302, R303). There are no integer
flags (10_state.md R27). -/

namespace Sys2Proof.Machine

/-- A set of floating-point flags: NV, DZ, OF, UF, NX from bit 4 to bit 0 (44_f_single.md R303). -/
abbrev FpFlags := BitVec 5

/-- NV, invalid operation. -/
def flagNV : FpFlags := 0b10000#5

/-- DZ, divide by zero. -/
def flagDZ : FpFlags := 0b01000#5

/-- OF, overflow. -/
def flagOF : FpFlags := 0b00100#5

/-- UF, underflow. -/
def flagUF : FpFlags := 0b00010#5

/-- NX, inexact. -/
def flagNX : FpFlags := 0b00001#5

/-- A flag when a condition holds, no flag otherwise. -/
def flagIf (b : Bool) (flag : FpFlags) : FpFlags := if b then flag else 0#5

/-- Accruing flags: OR into fflags; an OR of no flag still makes FS Dirty (44_f_single.md R303, 10_state.md R34). -/
def State.orFlags (s : State) (flags : FpFlags) : State := { s.dirtyFs with fflags := s.fflags ||| flags }

/-- The rounding direction an encoding of rm or frm names; 101, 110 and 111 name none (44_f_single.md R302). -/
def roundingOf (code : BitVec 3) : Option RoundingMode :=
  match code.toNat with
  | 0 => some .rne
  | 1 => some .rtz
  | 2 => some .rdn
  | 3 => some .rup
  | 4 => some .rmm
  | _ => none

/-- `effective_rm`: the field itself, or frm when the field is 111; none where the instruction is illegal
(44_f_single.md R302). -/
def State.effectiveRm (s : State) (rm : BitVec 3) : Option RoundingMode :=
  if rm = 0b111#3 then roundingOf s.frm else roundingOf rm

/-- Whether the floating-point unit is off: FS = 0 under trap delivery `machine` (10_state.md R34). -/
def State.fpOff (s : State) : Bool := s.cfg.trapDelivery == .machine && s.mstatus.fs == 0#2

end Sys2Proof.Machine
end

