-- ==== Sys2Proof/Machine/Ops.lean ====
section
/-! DEFINITION. The named operations: memory reads and writes with their checks, instruction fetches, taking an exception and
returning from one, jumps, and how an instruction's outcome becomes the outcome of a step. -/

namespace Sys2Proof.Machine

/-! Memory as data. -/

/-- The canonical form: addresses strictly rising. An unlisted address has no value, so no entry can repeat what an unlisted
address reads as (10_state.md R43, log 4). -/
abbrev Memory.wf (m : Memory) : Prop := m.Pairwise (fun c d => c.1 < d.1)

/-- The byte at an address, none where nothing has given it a value (10_state.md R45, log 4). -/
def Memory.get? : Memory → Nat → Option Byte
  | [], _ => none
  | (b, v) :: rest, a => if a = b then some v else Memory.get? rest a

/-- The memory with one byte written, in canonical form. -/
def Memory.set : Memory → Nat → Byte → Memory
  | [], a, v => [(a, v)]
  | (b, w) :: rest, a, v =>
    if a < b then (a, v) :: (b, w) :: rest
    else if a = b then (a, v) :: rest
    else (b, w) :: Memory.set rest a v

/-- The fetch-coherence set with one address added, strictly rising (10_state.md R42). -/
def staleInsert : List Nat → Nat → List Nat
  | [], a => [a]
  | b :: rest, a => if a < b then a :: b :: rest else if a = b then b :: rest else b :: staleInsert rest a

/-- The bytes of a value in memory order: little-endian (20_memory.md R62). -/
def wordBytes (v : Word) (n : Nat) : List Byte := (List.range n).map (fun i => v.extractLsb' (8 * i) 8)

/-- The value of bytes in memory order: little-endian (20_memory.md R62). -/
def bytesWord : List Byte → Word
  | [] => 0#64
  | b :: rest => (bytesWord rest <<< 8) ||| b.setWidth 64

/-- The addresses of an n-byte access, each modulo 2^XLEN (20_memory.md R71). -/
def accessAddrs (xlen : Xlen) (addr : Word) (n : Nat) : List Nat :=
  (List.range n).map (fun i => (addr.toNat + i) % 2 ^ xlen.bits)

/-! Checks. -/

/-- Whether a region covers an address with the permission an access kind needs (20_memory.md R69). -/
def Region.allows (r : Region) (kind : AccessKind) (a : Nat) : Bool :=
  decide (r.base ≤ a) && decide (a < r.base + r.len) &&
    match kind with
    | .load => r.read
    | .store => r.write
    | .atomic => r.read && r.write
    | .execute => r.execute

/-- Whether MEM_MAP permits an access: every byte lies in a region with the permission (20_memory.md R69). -/
def permitted (cfg : Config) (kind : AccessKind) (addr : Word) (n : Nat) : Bool :=
  (accessAddrs cfg.xlen addr n).all (fun a => cfg.memMap.any (fun r => Region.allows r kind a))

/-- The exception of a misaligned access by its kind (60_exceptions.md R605, R607). A fetch is never misaligned (R601). -/
def AccessKind.misaligned : AccessKind → Exc
  | .load => .loadAddrMisaligned
  | .store => .storeAddrMisaligned
  | .atomic => .storeAddrMisaligned
  | .execute => .instrAddrMisaligned

/-- The exception of an access that is not permitted by its kind (60_exceptions.md R602, R606, R608). -/
def AccessKind.accessFault : AccessKind → Exc
  | .load => .loadAccessFault
  | .store => .storeAccessFault
  | .atomic => .storeAccessFault
  | .execute => .instrAccessFault

/-- Whether an address is naturally aligned (20_memory.md R64). -/
def aligned (addr : Word) (n : Nat) : Bool := addr.toNat % n == 0

/-- The checks of a data access of n bytes, alignment before permission (60_exceptions.md R611). `strict` is set for lr, sc and
the AMOs, which must be aligned whatever MISALIGNED is (43_a_atomic.md R250); the trap value is the address. -/
def checkAccess (cfg : Config) (kind : AccessKind) (strict : Bool) (addr : Word) (n : Nat) : Except Stop Unit :=
  if !aligned addr n && (strict || cfg.misaligned == .trap) then .error (.exc kind.misaligned addr)
  else if !permitted cfg kind addr n then .error (.exc kind.accessFault addr)
  else .ok ()

/-! Reading and writing memory. -/

/-- The bytes at a list of addresses; a byte nothing has given a value stops the run (10_state.md R45, log 4). DESIGN CHOICE,
safe: a load, lr or AMO (amoswap among them) with rd = x0 stops the same way. R45 stops a read that can influence a result, R21 runs
an instruction with rd = x0 as if rd were ordinary, and which of the two decides here the spec leaves open (log 4). The address
that the fault carries, of several bytes without a value the first, is a DESIGN CHOICE too, safe (log 18). -/
def readBytes (m : Memory) : List Nat → Except Stop (List Byte)
  | [] => .ok []
  | a :: rest =>
    match Memory.get? m a with
    | none => .error (.fault (.readOfUnspecified a))
    | some b =>
      match readBytes m rest with
      | .error e => .error e
      | .ok bs => .ok (b :: bs)

/-- Writing bytes at addresses: each byte into memory, each address into the fetch-coherence set (20_memory.md R61,
10_state.md R42). -/
def State.putBytes (s : State) : List (Nat × Byte) → State
  | [] => s
  | (a, b) :: rest => State.putBytes { s with mem := Memory.set s.mem a b, stale := staleInsert s.stale a } rest

/-- The n bytes at an address as a value, checks already made. -/
def State.peek (s : State) (addr : Word) (n : Nat) : Except Stop Word :=
  match readBytes s.mem (accessAddrs s.cfg.xlen addr n) with
  | .error e => .error e
  | .ok bs => .ok (bytesWord bs)

/-- The low 8n bits of a value written at an address, checks already made. -/
def State.poke (s : State) (addr : Word) (n : Nat) (v : Word) : State :=
  s.putBytes ((accessAddrs s.cfg.xlen addr n).zip (wordBytes v n))

/-- `MemRead` of a load: the value zero-extended (20_memory.md R61). -/
def State.load (s : State) (addr : Word) (n : Nat) : Except Stop Word :=
  match checkAccess s.cfg .load false addr n with
  | .error e => .error e
  | .ok () => s.peek addr n

/-- `MemWrite` of a store (20_memory.md R61). -/
def State.store (s : State) (addr : Word) (n : Nat) (v : Word) : Except Stop State :=
  match checkAccess s.cfg .store false addr n with
  | .error e => .error e
  | .ok () => .ok (s.poke addr n v)

/-- The first address of a list that this hart has stored to since its last fence.i (10_state.md R42). DESIGN CHOICE, safe: this is
the address that `StaleFetch(address)` carries, the first stale byte and not the start of the parcel or table entry; 20_memory.md
R79 does not say which of them `address` is (log 18). -/
def State.firstStale (s : State) (addrs : List Nat) : Option Nat := addrs.find? (fun a => s.stale.contains a)

/-- A read as an instruction fetch: execute permission, then the fetch-coherence set, then the value (20_memory.md R69, R79;
49_zc_code_size.md R555). DESIGN CHOICE, safe: the spec gives the three checks and not their order among themselves (log 18). -/
def State.fetchRead (s : State) (addr : Word) (n : Nat) : Except Stop Word :=
  if !permitted s.cfg .execute addr n then .error (.exc .instrAccessFault addr)
  else
    match s.firstStale (accessAddrs s.cfg.xlen addr n) with
    | some a => .error (.fault (.staleFetch a))
    | none => s.peek addr n

/-- Fetching the instruction at pc: one parcel, or two where the first calls for a second (20_memory.md R63,
30_encoding.md R101, 60_exceptions.md R602). -/
def State.fetch (s : State) : Except Stop Code :=
  match s.fetchRead s.pc 2 with
  | .error e => .error e
  | .ok lo =>
    if isLong (lo.setWidth 16) then
      match s.fetchRead (effAddr s.cfg.xlen s.pc 2#64) 2 with
      | .error e => .error e
      | .ok hi => .ok (.full (hi.setWidth 16 ++ lo.setWidth 16))
    else .ok (.half (lo.setWidth 16))

/-! Taking an exception and returning from one. -/

/-- The cause code of an exception (60_exceptions.md R600). -/
def Exc.code : Exc → Word
  | .instrAddrMisaligned => 0#64
  | .instrAccessFault => 1#64
  | .illegalInstruction => 2#64
  | .breakpoint => 3#64
  | .loadAddrMisaligned => 4#64
  | .loadAccessFault => 5#64
  | .storeAddrMisaligned => 6#64
  | .storeAccessFault => 7#64
  | .ecallU => 8#64
  | .ecallS => 9#64
  | .ecallM => 11#64

/-- A value as mepc and sepc hold it: bit 0 zero, bit 1 zero too when IALIGN = 32 (10_state.md R35). -/
def epcValue (cfg : Config) (w : Word) : Word :=
  cut cfg.xlen (w &&& (if cfg.ext.c then ~~~1#64 else ~~~3#64))

/-- A trap, an mret or an sret keeps a held reservation or clears it: a free value decides (20_memory.md R81, log 5). -/
def State.mayLoseReservation (s : State) : State :=
  match s.reservation with
  | none => s
  | some _ => if s.free.getLsbD 0 then s.drawn else { s.drawn with reservation := none }

/-- The handler's address: BASE * 4, whatever MODE is (10_state.md R37). -/
def State.handler (s : State) : Word := cut s.cfg.xlen (s.mtvec &&& ~~~3#64)

/-- Taking an exception under trap delivery `machine` (60_exceptions.md R614): pc to mepc, cause and value saved, MIE stacked into
MPIE and the mode into MPP, mode M, pc at the handler. -/
def State.enterTrap (s : State) (cause : Exc) (tval : Word) : State :=
  { s.mayLoseReservation with
    mepc := epcValue s.cfg s.pc
    mcause := cause.code
    mtval := cut s.cfg.xlen tval
    mstatus := { s.mstatus with mpie := s.mstatus.mie, mie := false, mpp := s.priv }
    priv := .M
    pc := s.handler }

/-- Taking an exception on the state reached: the run ends there under trap delivery `environment` (60_exceptions.md R613), the
handler is entered under `machine` (R614). -/
def State.takeTrap (s : State) (cause : Exc) (tval : Word) : Result :=
  match s.cfg.trapDelivery with
  | .environment => .fault (.trap cause s.pc tval s)
  | .machine => .next (s.enterTrap cause tval)

/-- The return from an M-mode handler, the mode check already made (40_base_compute_system.md R182). -/
def State.returnFromM (s : State) : State :=
  { s.mayLoseReservation with
    mstatus := { s.mstatus with
      mie := s.mstatus.mpie, mpie := true, mpp := .U, mprv := s.mstatus.mprv && s.mstatus.mpp == .M }
    priv := s.mstatus.mpp
    pc := epcValue s.cfg s.mepc }

/-- The return from an S-mode handler, the mode check already made (40_base_compute_system.md R181). -/
def State.returnFromS (s : State) : State :=
  { s.mayLoseReservation with
    mstatus := { s.mstatus with sie := s.mstatus.spie, spie := true, spp := false, mprv := false }
    priv := if s.mstatus.spp then .S else .U
    pc := epcValue s.cfg s.sepc }

/-! Outcomes. -/

/-- What happens when an instruction does not complete: the exception is taken on the given state, or the run ends. -/
def State.stop (s : State) : Stop → Result
  | .exc cause tval => s.takeTrap cause tval
  | .fault r => .fault r
  | .refuse r => .refused r

/-- The outcome of an instruction that either completes or has changed nothing (60_exceptions.md R612). -/
def State.conclude (s : State) : Except Stop State → Result
  | .ok t => .next t
  | .error e => s.stop e

/-- illegal-instruction, its trap value the instruction's bits (60_exceptions.md R603, R615). -/
def illegal (i : Instr) : Stop := .exc .illegalInstruction i.bits

/-! Jumps. -/

/-- A jump or taken branch to a target: it must be IALIGN-aligned, else the exception is reported here with the target as its
value (60_exceptions.md R601). -/
def State.jumpTo (s : State) (target : Word) : Except Stop State :=
  if target.toNat % s.cfg.ext.ialignBytes = 0 then .ok { s with pc := target }
  else .error (.exc .instrAddrMisaligned target)

/-- A jump that links: rd receives the address after this n-byte instruction, only when the jump happens
(60_exceptions.md R601, 41_base_memory_control_rv64i.md R198). -/
def State.jumpLink (s : State) (n : Nat) (rd : RegIdx) (target : Word) : Result :=
  s.conclude
    (match s.jumpTo target with
     | .error e => .error e
     | .ok t => .ok (t.setX rd (effAddr s.cfg.xlen s.pc (BitVec.ofNat 64 n))))

/-- A branch of n bytes: to pc plus the offset when the condition holds, else past it (41_base_memory_control_rv64i.md R200). -/
def State.branch (s : State) (n : Nat) (cond : Bool) (offset : Word) : Result :=
  if cond then s.conclude (s.jumpTo (effAddr s.cfg.xlen s.pc offset)) else .next (s.advance n)

/-! Loads and stores as whole instructions. -/

/-- A load of w bytes into an integer register by an n-byte instruction, the value extended by `ext`
(41_base_memory_control_rv64i.md R190 to R194). -/
def State.loadX (s : State) (n : Nat) (rd : RegIdx) (addr : Word) (w : Nat) (ext : Word → Word) : Result :=
  s.conclude
    (match s.load addr w with
     | .error e => .error e
     | .ok v => .ok (s.writeX n rd (ext v)))

/-- A store of the low w bytes of a value by an n-byte instruction (41_base_memory_control_rv64i.md R195). -/
def State.storeX (s : State) (n : Nat) (addr : Word) (w : Nat) (v : Word) : Result :=
  s.conclude
    (match s.store addr w v with
     | .error e => .error e
     | .ok t => .ok (t.advance n))

end Sys2Proof.Machine
end

