-- ==== Sys2Proof/Machine/IntOps.lean ====
section
/-! DEFINITION. The integer operations, each given once for every width, and the forms of instruction that apply them. -/

namespace Sys2Proof.Machine

/-- The integer instruction of n bytes that writes op of one value to rd. -/
def State.alu1 (s : State) (n : Nat) (rd : RegIdx) (op : ∀ w, BitVec w → BitVec w) (a : Word) : Result :=
  .next (s.writeX n rd (lift1 s.xlen op a))

/-- The integer instruction of n bytes that writes op of two values to rd. -/
def State.alu2 (s : State) (n : Nat) (rd : RegIdx) (op : ∀ w, BitVec w → BitVec w → BitVec w) (a b : Word) : Result :=
  .next (s.writeX n rd (lift2 s.xlen op a b))

/-- The word instruction of n bytes: a 32-bit op of the low words, sign-extended, written to rd
(41_base_memory_control_rv64i.md R206 to R214). -/
def State.aluWord (s : State) (n : Nat) (rd : RegIdx) (op : BitVec 32 → BitVec 32 → BitVec 32) (a b : Word) : Result :=
  .next (s.writeX n rd (word2 s.xlen op a b))

/-- The comparison instruction of n bytes: 1 or 0 to rd (40_base_compute_system.md R153, R154, R164, R165). -/
def State.setIf (s : State) (n : Nat) (rd : RegIdx) (test : ∀ w, BitVec w → BitVec w → Bool) (a b : Word) : Result :=
  .next (s.writeX n rd (ofBool (test2 s.xlen test a b)))

/-- Addition modulo 2^w. -/
def addOp (w : Nat) (a b : BitVec w) : BitVec w := a + b

/-- Subtraction modulo 2^w. -/
def subOp (w : Nat) (a b : BitVec w) : BitVec w := a - b

/-- Bitwise and. -/
def andOp (w : Nat) (a b : BitVec w) : BitVec w := a &&& b

/-- Bitwise or. -/
def orOp (w : Nat) (a b : BitVec w) : BitVec w := a ||| b

/-- Bitwise exclusive or. -/
def xorOp (w : Nat) (a b : BitVec w) : BitVec w := a ^^^ b

/-- Shift left by the low log2(w) bits of b (40_base_compute_system.md R163). -/
def sllOp (w : Nat) (a b : BitVec w) : BitVec w := a <<< amount b

/-- Logical shift right by the low log2(w) bits of b (40_base_compute_system.md R167). -/
def srlOp (w : Nat) (a b : BitVec w) : BitVec w := a >>> amount b

/-- Arithmetic shift right by the low log2(w) bits of b (40_base_compute_system.md R168). -/
def sraOp (w : Nat) (a b : BitVec w) : BitVec w := a.sshiftRight (amount b)

/-- Signed less than. -/
def ltSigned (w : Nat) (a b : BitVec w) : Bool := a.slt b

/-- Unsigned less than. -/
def ltUnsigned (w : Nat) (a b : BitVec w) : Bool := a.ult b

/-- Equality. -/
def eqTest (w : Nat) (a b : BitVec w) : Bool := a == b

/-! Multiplication and division (42_m_multiply_divide.md). -/

/-- The low half of the product (R231). -/
def mulOp (w : Nat) (a b : BitVec w) : BitVec w := a * b

/-- The high half of an exact product (R232 to R234). -/
def highHalf (w : Nat) (product : Int) : BitVec w := BitVec.ofInt w (product / 2 ^ w)

/-- The high half of signed times signed (R232). -/
def mulhOp (w : Nat) (a b : BitVec w) : BitVec w := highHalf w (a.toInt * b.toInt)

/-- The high half of signed times unsigned (R233). -/
def mulhsuOp (w : Nat) (a b : BitVec w) : BitVec w := highHalf w (a.toInt * (b.toNat : Int))

/-- The high half of unsigned times unsigned (R234). -/
def mulhuOp (w : Nat) (a b : BitVec w) : BitVec w := highHalf w ((a.toNat : Int) * (b.toNat : Int))

/-- Signed quotient toward zero; all ones for a zero divisor; the dividend on signed overflow (R230). -/
def divOp (w : Nat) (a b : BitVec w) : BitVec w :=
  if b = 0#w then BitVec.allOnes w else BitVec.ofInt w (a.toInt.tdiv b.toInt)

/-- Unsigned quotient; all ones for a zero divisor (R230). -/
def divuOp (w : Nat) (a b : BitVec w) : BitVec w :=
  if b = 0#w then BitVec.allOnes w else BitVec.ofNat w (a.toNat / b.toNat)

/-- Signed remainder with the sign of the dividend; the dividend for a zero divisor; 0 on signed overflow (R230). -/
def remOp (w : Nat) (a b : BitVec w) : BitVec w :=
  if b = 0#w then a else BitVec.ofInt w (a.toInt.tmod b.toInt)

/-- Unsigned remainder; the dividend for a zero divisor (R230). -/
def remuOp (w : Nat) (a b : BitVec w) : BitVec w :=
  if b = 0#w then a else BitVec.ofNat w (a.toNat % b.toNat)

/-! Bit manipulation (47_b_bit_manipulation.md R440). -/

/-- The smaller of two values under an order (R460, R461). -/
def minOp (lt : ∀ w, BitVec w → BitVec w → Bool) (w : Nat) (a b : BitVec w) : BitVec w := if lt w a b then a else b

/-- The larger of two values under an order (R458, R459). -/
def maxOp (lt : ∀ w, BitVec w → BitVec w → Bool) (w : Nat) (a b : BitVec w) : BitVec w := if lt w a b then b else a

/-- `rotl` by the low log2(w) bits of b (R440, R465). -/
def rolOp (w : Nat) (a b : BitVec w) : BitVec w := a.rotateLeft (amount b)

/-- `rotr` by the low log2(w) bits of b (R440, R467). -/
def rorOp (w : Nat) (a b : BitVec w) : BitVec w := a.rotateRight (amount b)

/-- The number of zero bits of the k low bits above the highest set one, k when none is set: `clz` (R440). -/
def leadingZeros {w : Nat} (a : BitVec w) : Nat → Nat
  | 0 => 0
  | k + 1 => if a.getLsbD k then 0 else leadingZeros a k + 1

/-- The number of zero bits of the k high bits below the lowest set one, k when none is set: `ctz` (R440). -/
def trailingZeros {w : Nat} (a : BitVec w) : Nat → Nat
  | 0 => 0
  | k + 1 => if a.getLsbD (w - (k + 1)) then 0 else trailingZeros a k + 1

/-- The number of set bits among the k low bits: `popcount` (R440). -/
def popCount {w : Nat} (a : BitVec w) : Nat → Nat
  | 0 => 0
  | k + 1 => popCount a k + (if a.getLsbD k then 1 else 0)

/-- `clz` (R440, R452). -/
def clzOp (w : Nat) (a : BitVec w) : BitVec w := BitVec.ofNat w (leadingZeros a w)

/-- `ctz` (R440, R454). -/
def ctzOp (w : Nat) (a : BitVec w) : BitVec w := BitVec.ofNat w (trailingZeros a w)

/-- `popcount` (R440, R456). -/
def cpopOp (w : Nat) (a : BitVec w) : BitVec w := BitVec.ofNat w (popCount a w)

/-- The k low bytes of the result of `orc.b`: a byte of ones where the byte of a is not zero (R471). -/
def orCombine {w : Nat} (a : BitVec w) : Nat → Nat
  | 0 => 0
  | k + 1 => orCombine a k + (if a.extractLsb' (8 * k) 8 = 0#8 then 0 else 0xff * 2 ^ (8 * k))

/-- `orc.b` (R471). -/
def orcbOp (w : Nat) (a : BitVec w) : BitVec w := BitVec.ofNat w (orCombine a (w / 8))

/-- The bytes of a from the lowest of its k high bytes up, each below the one before, after the bytes in acc (R472). -/
def reverseBytes {w : Nat} (a : BitVec w) : Nat → Nat → Nat
  | 0, acc => acc
  | k + 1, acc => reverseBytes a k (acc * 2 ^ 8 + (a.extractLsb' (8 * (w / 8 - (k + 1))) 8).toNat)

/-- `rev8`: byte k of the result is byte w/8 - 1 - k of the source (R472). -/
def rev8Op (w : Nat) (a : BitVec w) : BitVec w :=
  BitVec.ofNat w (reverseBytes a (w / 8) 0)

/-- The carry-less product by the k low bits of b: the exclusive or of a shifted to each set bit (R440). -/
def carryless {w : Nat} (a b : BitVec w) : Nat → Nat
  | 0 => 0
  | k + 1 => carryless a b k ^^^ (if b.getLsbD k then a.toNat * 2 ^ k else 0)

/-- The low half of the carry-less product (R473). -/
def clmulOp (w : Nat) (a b : BitVec w) : BitVec w := BitVec.ofNat w (carryless a b w)

/-- The high half of the carry-less product (R474). -/
def clmulhOp (w : Nat) (a b : BitVec w) : BitVec w := BitVec.ofNat w (carryless a b w / 2 ^ w)

/-- Bits 2w-2 to w-1 of the carry-less product (R475). -/
def clmulrOp (w : Nat) (a b : BitVec w) : BitVec w := BitVec.ofNat w (carryless a b w / 2 ^ (w - 1))

/-- The single bit the low log2(w) bits of b select (R476). -/
def oneBit (w : Nat) (b : BitVec w) : BitVec w := 1#w <<< amount b

/-- Single-bit clear (R476). -/
def bclrOp (w : Nat) (a b : BitVec w) : BitVec w := a &&& ~~~oneBit w b

/-- Single-bit extract (R478). -/
def bextOp (w : Nat) (a b : BitVec w) : BitVec w := (a >>> amount b) &&& 1#w

/-- Single-bit invert (R480). -/
def binvOp (w : Nat) (a b : BitVec w) : BitVec w := a ^^^ oneBit w b

/-- Single-bit set (R482). -/
def bsetOp (w : Nat) (a b : BitVec w) : BitVec w := a ||| oneBit w b

/-- The low word of a value, zero-extended: the operand of the `.uw` instructions (R441). -/
def lowWord (a : Word) : Word := (a.setWidth 32).setWidth 64

end Sys2Proof.Machine
end

