-- ==== Sys2Proof/Machine/Atomic.lean ====
section
/-! DEFINITION. The A extension (43_a_atomic.md R250 to R275). aq and rl have no effect on one hart (R253). -/

namespace Sys2Proof.Machine

/-- An n-byte value read by an atomic instruction, sign-extended to XLEN bits (43_a_atomic.md R250). -/
def atomicValue (xlen : Xlen) (n : Nat) (v : Word) : Word := if n = 4 then sext xlen (v.setWidth 32) else v

/-- lr: the load and the reservation (43_a_atomic.md R250, R251). -/
def State.loadReserved (s : State) (rd : RegIdx) (addr : Word) (n : Nat) : Result :=
  s.conclude
    (match checkAccess s.cfg .load true addr n with
     | .error e => .error e
     | .ok () =>
       match s.peek addr n with
       | .error e => .error e
       | .ok v => .ok { s.writeX 4 rd (atomicValue s.xlen n v) with reservation := some ⟨addr, n⟩ })

/-- Whether an sc finds its reservation (43_a_atomic.md R251). -/
def State.reserved (s : State) (addr : Word) (n : Nat) : Bool := s.reservation == some ⟨addr, n⟩

/-- Whether an sc succeeds: its reservation is there and, where spurious failure is allowed, a free value agrees
(20_memory.md R81, log 5). -/
def State.scSucceeds (s : State) (addr : Word) (n : Nat) : Bool :=
  s.reserved addr n && (!s.cfg.scMayFailSpuriously || s.free.getLsbD 0)

/-- The hart after the free value an sc may have drawn. -/
def State.scDrawn (s : State) (addr : Word) (n : Nat) : State :=
  if s.reserved addr n && s.cfg.scMayFailSpuriously then s.drawn else s

/-- sc: the store on success, 0 or 1 to rd, no reservation left (43_a_atomic.md R250, R251). The checks come first, whether or
not the reservation is there. -/
def State.storeConditional (s : State) (rd : RegIdx) (addr : Word) (n : Nat) (v : Word) : Result :=
  s.conclude
    (match checkAccess s.cfg .atomic true addr n with
     | .error e => .error e
     | .ok () =>
       let ok := s.scSucceeds addr n
       let t := if ok then (s.scDrawn addr n).poke addr n v else s.scDrawn addr n
       .ok { t.writeX 4 rd (ofBool (!ok)) with reservation := none })

/-- An AMO of n bytes: the old value read, the new one written, the old one to rd (43_a_atomic.md R250, R252). -/
def State.amo (s : State) (rd : RegIdx) (addr : Word) (n : Nat) (op : Word → Word) : Result :=
  s.conclude
    (match checkAccess s.cfg .atomic true addr n with
     | .error e => .error e
     | .ok () =>
       match s.peek addr n with
       | .error e => .error e
       | .ok t => .ok ((s.poke addr n (op t)).writeX 4 rd (atomicValue s.xlen n t)))

/-- An AMO on a word, with the low word of the operand (43_a_atomic.md R250, R252). -/
def State.amoWord (s : State) (rd : RegIdx) (addr v : Word) (op : BitVec 32 → BitVec 32 → BitVec 32) : Result :=
  s.amo rd addr 4 (fun t => (op (t.setWidth 32) (v.setWidth 32)).setWidth 64)

/-- An AMO on a doubleword (43_a_atomic.md R252). -/
def State.amoDouble (s : State) (rd : RegIdx) (addr v : Word) (op : BitVec 64 → BitVec 64 → BitVec 64) : Result :=
  s.amo rd addr 8 (fun t => op t v)

/-- lr.w, load-reserved word (43_a_atomic.md R254). -/
def execLrW (rd rs1 : RegIdx) (_aq _rl : BitVec 1) (s : State) : Result := s.loadReserved rd (s.getX rs1) 4

/-- sc.w, store-conditional word (43_a_atomic.md R255). -/
def execScW (rd rs1 rs2 : RegIdx) (_aq _rl : BitVec 1) (s : State) : Result := s.storeConditional rd (s.getX rs1) 4 (s.getX rs2)

/-- amoswap.w, atomic swap word (43_a_atomic.md R256). -/
def execAmoswapW (rd rs1 rs2 : RegIdx) (_aq _rl : BitVec 1) (s : State) : Result :=
  s.amoWord rd (s.getX rs1) (s.getX rs2) (fun _ b => b)

/-- amoadd.w, atomic add word (43_a_atomic.md R257). -/
def execAmoaddW (rd rs1 rs2 : RegIdx) (_aq _rl : BitVec 1) (s : State) : Result :=
  s.amoWord rd (s.getX rs1) (s.getX rs2) (addOp 32)

/-- amoxor.w, atomic exclusive-or word (43_a_atomic.md R258). -/
def execAmoxorW (rd rs1 rs2 : RegIdx) (_aq _rl : BitVec 1) (s : State) : Result :=
  s.amoWord rd (s.getX rs1) (s.getX rs2) (xorOp 32)

/-- amoand.w, atomic and word (43_a_atomic.md R259). -/
def execAmoandW (rd rs1 rs2 : RegIdx) (_aq _rl : BitVec 1) (s : State) : Result :=
  s.amoWord rd (s.getX rs1) (s.getX rs2) (andOp 32)

/-- amoor.w, atomic or word (43_a_atomic.md R260). -/
def execAmoorW (rd rs1 rs2 : RegIdx) (_aq _rl : BitVec 1) (s : State) : Result :=
  s.amoWord rd (s.getX rs1) (s.getX rs2) (orOp 32)

/-- amomin.w, atomic signed minimum word (43_a_atomic.md R261). -/
def execAmominW (rd rs1 rs2 : RegIdx) (_aq _rl : BitVec 1) (s : State) : Result :=
  s.amoWord rd (s.getX rs1) (s.getX rs2) (minOp ltSigned 32)

/-- amomax.w, atomic signed maximum word (43_a_atomic.md R262). -/
def execAmomaxW (rd rs1 rs2 : RegIdx) (_aq _rl : BitVec 1) (s : State) : Result :=
  s.amoWord rd (s.getX rs1) (s.getX rs2) (maxOp ltSigned 32)

/-- amominu.w, atomic unsigned minimum word (43_a_atomic.md R263). -/
def execAmominuW (rd rs1 rs2 : RegIdx) (_aq _rl : BitVec 1) (s : State) : Result :=
  s.amoWord rd (s.getX rs1) (s.getX rs2) (minOp ltUnsigned 32)

/-- amomaxu.w, atomic unsigned maximum word (43_a_atomic.md R264). -/
def execAmomaxuW (rd rs1 rs2 : RegIdx) (_aq _rl : BitVec 1) (s : State) : Result :=
  s.amoWord rd (s.getX rs1) (s.getX rs2) (maxOp ltUnsigned 32)

/-- lr.d on RV64, load-reserved doubleword (43_a_atomic.md R265). -/
def execLrD (rd rs1 : RegIdx) (_aq _rl : BitVec 1) (s : State) : Result := s.loadReserved rd (s.getX rs1) 8

/-- sc.d on RV64, store-conditional doubleword (43_a_atomic.md R266). -/
def execScD (rd rs1 rs2 : RegIdx) (_aq _rl : BitVec 1) (s : State) : Result := s.storeConditional rd (s.getX rs1) 8 (s.getX rs2)

/-- amoswap.d on RV64, atomic swap doubleword (43_a_atomic.md R267). -/
def execAmoswapD (rd rs1 rs2 : RegIdx) (_aq _rl : BitVec 1) (s : State) : Result :=
  s.amoDouble rd (s.getX rs1) (s.getX rs2) (fun _ b => b)

/-- amoadd.d on RV64, atomic add doubleword (43_a_atomic.md R268). -/
def execAmoaddD (rd rs1 rs2 : RegIdx) (_aq _rl : BitVec 1) (s : State) : Result :=
  s.amoDouble rd (s.getX rs1) (s.getX rs2) (addOp 64)

/-- amoxor.d on RV64, atomic exclusive-or doubleword (43_a_atomic.md R269). -/
def execAmoxorD (rd rs1 rs2 : RegIdx) (_aq _rl : BitVec 1) (s : State) : Result :=
  s.amoDouble rd (s.getX rs1) (s.getX rs2) (xorOp 64)

/-- amoand.d on RV64, atomic and doubleword (43_a_atomic.md R270). -/
def execAmoandD (rd rs1 rs2 : RegIdx) (_aq _rl : BitVec 1) (s : State) : Result :=
  s.amoDouble rd (s.getX rs1) (s.getX rs2) (andOp 64)

/-- amoor.d on RV64, atomic or doubleword (43_a_atomic.md R271). -/
def execAmoorD (rd rs1 rs2 : RegIdx) (_aq _rl : BitVec 1) (s : State) : Result :=
  s.amoDouble rd (s.getX rs1) (s.getX rs2) (orOp 64)

/-- amomin.d on RV64, atomic signed minimum doubleword (43_a_atomic.md R272). -/
def execAmominD (rd rs1 rs2 : RegIdx) (_aq _rl : BitVec 1) (s : State) : Result :=
  s.amoDouble rd (s.getX rs1) (s.getX rs2) (minOp ltSigned 64)

/-- amomax.d on RV64, atomic signed maximum doubleword (43_a_atomic.md R273). -/
def execAmomaxD (rd rs1 rs2 : RegIdx) (_aq _rl : BitVec 1) (s : State) : Result :=
  s.amoDouble rd (s.getX rs1) (s.getX rs2) (maxOp ltSigned 64)

/-- amominu.d on RV64, atomic unsigned minimum doubleword (43_a_atomic.md R274). -/
def execAmominuD (rd rs1 rs2 : RegIdx) (_aq _rl : BitVec 1) (s : State) : Result :=
  s.amoDouble rd (s.getX rs1) (s.getX rs2) (minOp ltUnsigned 64)

/-- amomaxu.d on RV64, atomic unsigned maximum doubleword (43_a_atomic.md R275). -/
def execAmomaxuD (rd rs1 rs2 : RegIdx) (_aq _rl : BitVec 1) (s : State) : Result :=
  s.amoDouble rd (s.getX rs1) (s.getX rs2) (maxOp ltUnsigned 64)

end Sys2Proof.Machine
end

