-- ==== Sys2Proof/Machine/Base.lean ====
section
/-! DEFINITION. The integer computational instructions of the base ISA and the word instructions of RV64I (40_base_compute_system.md
R150 to R170, 41_base_memory_control_rv64i.md R206 to R214). -/

namespace Sys2Proof.Machine

/-- lui, load upper immediate (40_base_compute_system.md R150). -/
def execLui (rd : RegIdx) (imm : BitVec 20) (s : State) : Result := .next (s.writeX 4 rd (sext s.xlen (imm ++ 0#12)))

/-- auipc, add upper immediate to pc (40_base_compute_system.md R151). -/
def execAuipc (rd : RegIdx) (imm : BitVec 20) (s : State) : Result :=
  .next (s.writeX 4 rd (effAddr s.xlen s.pc (sext s.xlen (imm ++ 0#12))))

/-- addi, add immediate (40_base_compute_system.md R152). -/
def execAddi (rd rs1 : RegIdx) (imm : BitVec 12) (s : State) : Result := s.alu2 4 rd addOp (s.getX rs1) (sext s.xlen imm)

/-- slti, set less than immediate (40_base_compute_system.md R153). -/
def execSlti (rd rs1 : RegIdx) (imm : BitVec 12) (s : State) : Result := s.setIf 4 rd ltSigned (s.getX rs1) (sext s.xlen imm)

/-- sltiu, set less than immediate unsigned (40_base_compute_system.md R154). -/
def execSltiu (rd rs1 : RegIdx) (imm : BitVec 12) (s : State) : Result := s.setIf 4 rd ltUnsigned (s.getX rs1) (sext s.xlen imm)

/-- xori, exclusive-or immediate (40_base_compute_system.md R155). -/
def execXori (rd rs1 : RegIdx) (imm : BitVec 12) (s : State) : Result := s.alu2 4 rd xorOp (s.getX rs1) (sext s.xlen imm)

/-- ori, or immediate (40_base_compute_system.md R156). -/
def execOri (rd rs1 : RegIdx) (imm : BitVec 12) (s : State) : Result := s.alu2 4 rd orOp (s.getX rs1) (sext s.xlen imm)

/-- andi, and immediate (40_base_compute_system.md R157). -/
def execAndi (rd rs1 : RegIdx) (imm : BitVec 12) (s : State) : Result := s.alu2 4 rd andOp (s.getX rs1) (sext s.xlen imm)

/-- slli, shift left logical immediate (40_base_compute_system.md R158). -/
def execSlli (rd rs1 : RegIdx) (shamt : BitVec 6) (s : State) : Result := s.alu2 4 rd sllOp (s.getX rs1) (zext shamt)

/-- srli, shift right logical immediate (40_base_compute_system.md R159). -/
def execSrli (rd rs1 : RegIdx) (shamt : BitVec 6) (s : State) : Result := s.alu2 4 rd srlOp (s.getX rs1) (zext shamt)

/-- srai, shift right arithmetic immediate (40_base_compute_system.md R160). -/
def execSrai (rd rs1 : RegIdx) (shamt : BitVec 6) (s : State) : Result := s.alu2 4 rd sraOp (s.getX rs1) (zext shamt)

/-- add, add (40_base_compute_system.md R161). -/
def execAdd (rd rs1 rs2 : RegIdx) (s : State) : Result := s.alu2 4 rd addOp (s.getX rs1) (s.getX rs2)

/-- sub, subtract (40_base_compute_system.md R162). -/
def execSub (rd rs1 rs2 : RegIdx) (s : State) : Result := s.alu2 4 rd subOp (s.getX rs1) (s.getX rs2)

/-- sll, shift left logical (40_base_compute_system.md R163). -/
def execSll (rd rs1 rs2 : RegIdx) (s : State) : Result := s.alu2 4 rd sllOp (s.getX rs1) (s.getX rs2)

/-- slt, set less than (40_base_compute_system.md R164). -/
def execSlt (rd rs1 rs2 : RegIdx) (s : State) : Result := s.setIf 4 rd ltSigned (s.getX rs1) (s.getX rs2)

/-- sltu, set less than unsigned (40_base_compute_system.md R165). -/
def execSltu (rd rs1 rs2 : RegIdx) (s : State) : Result := s.setIf 4 rd ltUnsigned (s.getX rs1) (s.getX rs2)

/-- xor, exclusive or (40_base_compute_system.md R166). -/
def execXor (rd rs1 rs2 : RegIdx) (s : State) : Result := s.alu2 4 rd xorOp (s.getX rs1) (s.getX rs2)

/-- srl, shift right logical (40_base_compute_system.md R167). -/
def execSrl (rd rs1 rs2 : RegIdx) (s : State) : Result := s.alu2 4 rd srlOp (s.getX rs1) (s.getX rs2)

/-- sra, shift right arithmetic (40_base_compute_system.md R168). -/
def execSra (rd rs1 rs2 : RegIdx) (s : State) : Result := s.alu2 4 rd sraOp (s.getX rs1) (s.getX rs2)

/-- or, or (40_base_compute_system.md R169). -/
def execOr (rd rs1 rs2 : RegIdx) (s : State) : Result := s.alu2 4 rd orOp (s.getX rs1) (s.getX rs2)

/-- and, and (40_base_compute_system.md R170). -/
def execAnd (rd rs1 rs2 : RegIdx) (s : State) : Result := s.alu2 4 rd andOp (s.getX rs1) (s.getX rs2)

/-- addiw on RV64, add immediate word (41_base_memory_control_rv64i.md R206). -/
def execAddiw (rd rs1 : RegIdx) (imm : BitVec 12) (s : State) : Result :=
  s.aluWord 4 rd (addOp 32) (s.getX rs1) (sext s.xlen imm)

/-- slliw on RV64, shift left logical word immediate (41_base_memory_control_rv64i.md R207). -/
def execSlliw (rd rs1 : RegIdx) (shamt : BitVec 5) (s : State) : Result := s.aluWord 4 rd (sllOp 32) (s.getX rs1) (zext shamt)

/-- srliw on RV64, shift right logical word immediate (41_base_memory_control_rv64i.md R208). -/
def execSrliw (rd rs1 : RegIdx) (shamt : BitVec 5) (s : State) : Result := s.aluWord 4 rd (srlOp 32) (s.getX rs1) (zext shamt)

/-- sraiw on RV64, shift right arithmetic word immediate (41_base_memory_control_rv64i.md R209). -/
def execSraiw (rd rs1 : RegIdx) (shamt : BitVec 5) (s : State) : Result := s.aluWord 4 rd (sraOp 32) (s.getX rs1) (zext shamt)

/-- addw on RV64, add word (41_base_memory_control_rv64i.md R210). -/
def execAddw (rd rs1 rs2 : RegIdx) (s : State) : Result := s.aluWord 4 rd (addOp 32) (s.getX rs1) (s.getX rs2)

/-- subw on RV64, subtract word (41_base_memory_control_rv64i.md R211). -/
def execSubw (rd rs1 rs2 : RegIdx) (s : State) : Result := s.aluWord 4 rd (subOp 32) (s.getX rs1) (s.getX rs2)

/-- sllw on RV64, shift left logical word (41_base_memory_control_rv64i.md R212). -/
def execSllw (rd rs1 rs2 : RegIdx) (s : State) : Result := s.aluWord 4 rd (sllOp 32) (s.getX rs1) (s.getX rs2)

/-- srlw on RV64, shift right logical word (41_base_memory_control_rv64i.md R213). -/
def execSrlw (rd rs1 rs2 : RegIdx) (s : State) : Result := s.aluWord 4 rd (srlOp 32) (s.getX rs1) (s.getX rs2)

/-- sraw on RV64, shift right arithmetic word (41_base_memory_control_rv64i.md R214). -/
def execSraw (rd rs1 rs2 : RegIdx) (s : State) : Result := s.aluWord 4 rd (sraOp 32) (s.getX rs1) (s.getX rs2)

end Sys2Proof.Machine
end

