-- ==== Sys2Proof/Machine/BitManip.lean ====
section
/-! DEFINITION. The B extension (47_b_bit_manipulation.md R441 to R483). -/

namespace Sys2Proof.Machine

/-- add.uw on RV64, add unsigned word (47_b_bit_manipulation.md R441). -/
def execAddUw (rd rs1 rs2 : RegIdx) (s : State) : Result := s.alu2 4 rd addOp (lowWord (s.getX rs1)) (s.getX rs2)

/-- sh1add, shift left by 1 and add (47_b_bit_manipulation.md R442). -/
def execSh1add (rd rs1 rs2 : RegIdx) (s : State) : Result := s.alu2 4 rd (fun _ a b => b + a <<< 1) (s.getX rs1) (s.getX rs2)

/-- sh1add.uw on RV64, shift left by 1 and add, unsigned word (47_b_bit_manipulation.md R443). -/
def execSh1addUw (rd rs1 rs2 : RegIdx) (s : State) : Result := s.alu2 4 rd addOp (lowWord (s.getX rs1) <<< 1) (s.getX rs2)

/-- sh2add, shift left by 2 and add (47_b_bit_manipulation.md R444). -/
def execSh2add (rd rs1 rs2 : RegIdx) (s : State) : Result := s.alu2 4 rd (fun _ a b => b + a <<< 2) (s.getX rs1) (s.getX rs2)

/-- sh2add.uw on RV64, shift left by 2 and add, unsigned word (47_b_bit_manipulation.md R445). -/
def execSh2addUw (rd rs1 rs2 : RegIdx) (s : State) : Result := s.alu2 4 rd addOp (lowWord (s.getX rs1) <<< 2) (s.getX rs2)

/-- sh3add, shift left by 3 and add (47_b_bit_manipulation.md R446). -/
def execSh3add (rd rs1 rs2 : RegIdx) (s : State) : Result := s.alu2 4 rd (fun _ a b => b + a <<< 3) (s.getX rs1) (s.getX rs2)

/-- sh3add.uw on RV64, shift left by 3 and add, unsigned word (47_b_bit_manipulation.md R447). -/
def execSh3addUw (rd rs1 rs2 : RegIdx) (s : State) : Result := s.alu2 4 rd addOp (lowWord (s.getX rs1) <<< 3) (s.getX rs2)

/-- slli.uw on RV64, shift left logical immediate, unsigned word (47_b_bit_manipulation.md R448). -/
def execSlliUw (rd rs1 : RegIdx) (shamt : BitVec 6) (s : State) : Result :=
  s.alu2 4 rd sllOp (lowWord (s.getX rs1)) (zext shamt)

/-- andn, and with inverted operand (47_b_bit_manipulation.md R449). -/
def execAndn (rd rs1 rs2 : RegIdx) (s : State) : Result := s.alu2 4 rd (fun _ a b => a &&& ~~~b) (s.getX rs1) (s.getX rs2)

/-- orn, or with inverted operand (47_b_bit_manipulation.md R450). -/
def execOrn (rd rs1 rs2 : RegIdx) (s : State) : Result := s.alu2 4 rd (fun _ a b => a ||| ~~~b) (s.getX rs1) (s.getX rs2)

/-- xnor, exclusive nor (47_b_bit_manipulation.md R451). -/
def execXnor (rd rs1 rs2 : RegIdx) (s : State) : Result := s.alu2 4 rd (fun _ a b => ~~~(a ^^^ b)) (s.getX rs1) (s.getX rs2)

/-- clz, count leading zeros (47_b_bit_manipulation.md R452). -/
def execClz (rd rs1 : RegIdx) (s : State) : Result := s.alu1 4 rd clzOp (s.getX rs1)

/-- clzw on RV64, count leading zeros in word (47_b_bit_manipulation.md R453). -/
def execClzw (rd rs1 : RegIdx) (s : State) : Result := .next (s.writeX 4 rd (zext (clzOp 32 ((s.getX rs1).setWidth 32))))

/-- ctz, count trailing zeros (47_b_bit_manipulation.md R454). -/
def execCtz (rd rs1 : RegIdx) (s : State) : Result := s.alu1 4 rd ctzOp (s.getX rs1)

/-- ctzw on RV64, count trailing zeros in word (47_b_bit_manipulation.md R455). -/
def execCtzw (rd rs1 : RegIdx) (s : State) : Result := .next (s.writeX 4 rd (zext (ctzOp 32 ((s.getX rs1).setWidth 32))))

/-- cpop, count set bits (47_b_bit_manipulation.md R456). -/
def execCpop (rd rs1 : RegIdx) (s : State) : Result := s.alu1 4 rd cpopOp (s.getX rs1)

/-- cpopw on RV64, count set bits in word (47_b_bit_manipulation.md R457). -/
def execCpopw (rd rs1 : RegIdx) (s : State) : Result := .next (s.writeX 4 rd (zext (cpopOp 32 ((s.getX rs1).setWidth 32))))

/-- max, maximum, signed (47_b_bit_manipulation.md R458). -/
def execMax (rd rs1 rs2 : RegIdx) (s : State) : Result := s.alu2 4 rd (maxOp ltSigned) (s.getX rs1) (s.getX rs2)

/-- maxu, maximum, unsigned (47_b_bit_manipulation.md R459). -/
def execMaxu (rd rs1 rs2 : RegIdx) (s : State) : Result := s.alu2 4 rd (maxOp ltUnsigned) (s.getX rs1) (s.getX rs2)

/-- min, minimum, signed (47_b_bit_manipulation.md R460). -/
def execMin (rd rs1 rs2 : RegIdx) (s : State) : Result := s.alu2 4 rd (minOp ltSigned) (s.getX rs1) (s.getX rs2)

/-- minu, minimum, unsigned (47_b_bit_manipulation.md R461). -/
def execMinu (rd rs1 rs2 : RegIdx) (s : State) : Result := s.alu2 4 rd (minOp ltUnsigned) (s.getX rs1) (s.getX rs2)

/-- sext.b, sign-extend byte (47_b_bit_manipulation.md R462). -/
def execSextB (rd rs1 : RegIdx) (s : State) : Result := .next (s.writeX 4 rd (sext s.xlen ((s.getX rs1).setWidth 8)))

/-- sext.h, sign-extend halfword (47_b_bit_manipulation.md R463). -/
def execSextH (rd rs1 : RegIdx) (s : State) : Result := .next (s.writeX 4 rd (sext s.xlen ((s.getX rs1).setWidth 16)))

/-- zext.h on RV32, zero-extend halfword (47_b_bit_manipulation.md R464). -/
def execZextHRv32 (rd rs1 : RegIdx) (s : State) : Result := .next (s.writeX 4 rd (zext ((s.getX rs1).setWidth 16)))

/-- zext.h on RV64, zero-extend halfword (47_b_bit_manipulation.md R464). -/
def execZextHRv64 (rd rs1 : RegIdx) (s : State) : Result := .next (s.writeX 4 rd (zext ((s.getX rs1).setWidth 16)))

/-- rol, rotate left (47_b_bit_manipulation.md R465). -/
def execRol (rd rs1 rs2 : RegIdx) (s : State) : Result := s.alu2 4 rd rolOp (s.getX rs1) (s.getX rs2)

/-- rolw on RV64, rotate left word (47_b_bit_manipulation.md R466). -/
def execRolw (rd rs1 rs2 : RegIdx) (s : State) : Result := s.aluWord 4 rd (rolOp 32) (s.getX rs1) (s.getX rs2)

/-- ror, rotate right (47_b_bit_manipulation.md R467). -/
def execRor (rd rs1 rs2 : RegIdx) (s : State) : Result := s.alu2 4 rd rorOp (s.getX rs1) (s.getX rs2)

/-- rori, rotate right immediate (47_b_bit_manipulation.md R468). -/
def execRori (rd rs1 : RegIdx) (shamt : BitVec 6) (s : State) : Result := s.alu2 4 rd rorOp (s.getX rs1) (zext shamt)

/-- roriw on RV64, rotate right word immediate (47_b_bit_manipulation.md R469). -/
def execRoriw (rd rs1 : RegIdx) (shamt : BitVec 5) (s : State) : Result := s.aluWord 4 rd (rorOp 32) (s.getX rs1) (zext shamt)

/-- rorw on RV64, rotate right word (47_b_bit_manipulation.md R470). -/
def execRorw (rd rs1 rs2 : RegIdx) (s : State) : Result := s.aluWord 4 rd (rorOp 32) (s.getX rs1) (s.getX rs2)

/-- orc.b, or-combine within bytes (47_b_bit_manipulation.md R471). -/
def execOrcB (rd rs1 : RegIdx) (s : State) : Result := s.alu1 4 rd orcbOp (s.getX rs1)

/-- rev8 on RV32, byte-reverse register (47_b_bit_manipulation.md R472). -/
def execRev8Rv32 (rd rs1 : RegIdx) (s : State) : Result := s.alu1 4 rd rev8Op (s.getX rs1)

/-- rev8 on RV64, byte-reverse register (47_b_bit_manipulation.md R472). -/
def execRev8Rv64 (rd rs1 : RegIdx) (s : State) : Result := s.alu1 4 rd rev8Op (s.getX rs1)

/-- clmul, carry-less multiply, low half (47_b_bit_manipulation.md R473). -/
def execClmul (rd rs1 rs2 : RegIdx) (s : State) : Result := s.alu2 4 rd clmulOp (s.getX rs1) (s.getX rs2)

/-- clmulh, carry-less multiply, high half (47_b_bit_manipulation.md R474). -/
def execClmulh (rd rs1 rs2 : RegIdx) (s : State) : Result := s.alu2 4 rd clmulhOp (s.getX rs1) (s.getX rs2)

/-- clmulr, carry-less multiply, reversed (47_b_bit_manipulation.md R475). -/
def execClmulr (rd rs1 rs2 : RegIdx) (s : State) : Result := s.alu2 4 rd clmulrOp (s.getX rs1) (s.getX rs2)

/-- bclr, single-bit clear (47_b_bit_manipulation.md R476). -/
def execBclr (rd rs1 rs2 : RegIdx) (s : State) : Result := s.alu2 4 rd bclrOp (s.getX rs1) (s.getX rs2)

/-- bclri, single-bit clear immediate (47_b_bit_manipulation.md R477). -/
def execBclri (rd rs1 : RegIdx) (shamt : BitVec 6) (s : State) : Result := s.alu2 4 rd bclrOp (s.getX rs1) (zext shamt)

/-- bext, single-bit extract (47_b_bit_manipulation.md R478). -/
def execBext (rd rs1 rs2 : RegIdx) (s : State) : Result := s.alu2 4 rd bextOp (s.getX rs1) (s.getX rs2)

/-- bexti, single-bit extract immediate (47_b_bit_manipulation.md R479). -/
def execBexti (rd rs1 : RegIdx) (shamt : BitVec 6) (s : State) : Result := s.alu2 4 rd bextOp (s.getX rs1) (zext shamt)

/-- binv, single-bit invert (47_b_bit_manipulation.md R480). -/
def execBinv (rd rs1 rs2 : RegIdx) (s : State) : Result := s.alu2 4 rd binvOp (s.getX rs1) (s.getX rs2)

/-- binvi, single-bit invert immediate (47_b_bit_manipulation.md R481). -/
def execBinvi (rd rs1 : RegIdx) (shamt : BitVec 6) (s : State) : Result := s.alu2 4 rd binvOp (s.getX rs1) (zext shamt)

/-- bset, single-bit set (47_b_bit_manipulation.md R482). -/
def execBset (rd rs1 rs2 : RegIdx) (s : State) : Result := s.alu2 4 rd bsetOp (s.getX rs1) (s.getX rs2)

/-- bseti, single-bit set immediate (47_b_bit_manipulation.md R483). -/
def execBseti (rd rs1 : RegIdx) (shamt : BitVec 6) (s : State) : Result := s.alu2 4 rd bsetOp (s.getX rs1) (zext shamt)

end Sys2Proof.Machine
end

