-- ==== Sys2Proof/Machine/CodeSize.lean ====
section
/-! DEFINITION. The Zcb, Zcmp and Zcmt extensions (49_zc_code_size.md R550 to R575). -/

namespace Sys2Proof.Machine

/-- The registers a push or pop can name, in the order of its accesses (49_zc_code_size.md R553). -/
def pushOrder : List RegIdx := [27#5, 26#5, 25#5, 24#5, 23#5, 22#5, 21#5, 20#5, 19#5, 18#5, 9#5, 8#5, 1#5]

/-- The least rlist whose list contains a register of `pushOrder` (49_zc_code_size.md R552). -/
def leastRlist (r : RegIdx) : Nat :=
  if r.toNat < 8 then 4 else if r.toNat < 18 then r.toNat - 3 else min (r.toNat - 11) 15

/-- The register list of an rlist of 4 or more, in the order of the accesses (49_zc_code_size.md R552, R553). -/
def regList (rlist : BitVec 4) : List RegIdx := pushOrder.filter (fun r => decide (leastRlist r ≤ rlist.toNat))

/-- `stack_adj`: the bytes of the list rounded up to a multiple of 16, and 16 for each unit of spimm
(49_zc_code_size.md R552). -/
def stackAdj (xlen : Xlen) (rlist : BitVec 4) (spimm : BitVec 2) : Word :=
  BitVec.ofNat 64 (((regList rlist).length * xlen.bytes + 15) / 16 * 16 + spimm.toNat * 16)

/-- The address of the first slot a pop reads: x2 + stack_adj - XLEN/8 (49_zc_code_size.md R569). -/
def topSlot (s : State) (rlist : BitVec 4) (spimm : BitVec 2) : Word :=
  effAddr s.xlen (s.getX sp) (stackAdj s.xlen rlist spimm - BitVec.ofNat 64 s.xlen.bytes)

/-- The address of the next slot down. -/
def slotBelow (s : State) (addr : Word) : Word := effAddr s.xlen addr (-BitVec.ofNat 64 s.xlen.bytes)

/-- The stores of cm.push, one at a time, and where they stopped if one did: those before it stay (49_zc_code_size.md R553). -/
def pushAll : List RegIdx → Word → State → State × Option Stop
  | [], _, s => (s, none)
  | r :: rest, addr, s =>
    match s.store addr s.xlen.bytes (s.getX r) with
    | .error e => (s, some e)
    | .ok t => pushAll rest (slotBelow s addr) t

/-- The loads of the pops, one at a time, and where they stopped if one did: the registers before it stay loaded
(49_zc_code_size.md R553). -/
def popAll : List RegIdx → Word → State → State × Option Stop
  | [], _, s => (s, none)
  | r :: rest, addr, s =>
    match s.load addr s.xlen.bytes with
    | .error e => (s, some e)
    | .ok v => popAll rest (slotBelow s addr) (s.setX r v)

/-- The final section of a push or pop, only when every access succeeded; else the exception, at the instruction's own pc, with
the earlier accesses kept (49_zc_code_size.md R553). -/
def finishSequence (accesses : State × Option Stop) (final : State → State) : Result :=
  match accesses.2 with
  | some e => accesses.1.stop e
  | none => .next (final accesses.1)

/-- cm.jt and cm.jalt: the mode of jvt, the table entry read as a fetch, the jump (49_zc_code_size.md R555). -/
def State.tableJump (s : State) (i : Instr) (index : BitVec 8) (link : State → State) : Result :=
  if s.jvt.extractLsb' 0 6 ≠ 0#6 then s.stop (illegal i)
  else
    match s.fetchRead (effAddr s.xlen (s.jvt &&& ~~~0x3f#64) (BitVec.ofNat 64 (index.toNat * s.xlen.bytes))) s.xlen.bytes with
    | .error e => s.stop e
    | .ok target => .next { link s with pc := target &&& ~~~1#64 }

/-- c.lbu, load byte, unsigned (49_zc_code_size.md R556). -/
def execCLbu (rd rs1 : CRegIdx) (uimm : BitVec 2) (s : State) : Result :=
  s.loadX 2 (creg rd) (effAddr s.xlen (s.getX (creg rs1)) (zext uimm)) 1 id

/-- c.lhu, load halfword, unsigned (49_zc_code_size.md R557). -/
def execCLhu (rd rs1 : CRegIdx) (uimm : BitVec 1) (s : State) : Result :=
  s.loadX 2 (creg rd) (effAddr s.xlen (s.getX (creg rs1)) (zext (uimm ++ 0#1))) 2 id

/-- c.lh, load halfword, signed (49_zc_code_size.md R558). -/
def execCLh (rd rs1 : CRegIdx) (uimm : BitVec 1) (s : State) : Result :=
  s.loadX 2 (creg rd) (effAddr s.xlen (s.getX (creg rs1)) (zext (uimm ++ 0#1))) 2 (fun v => sext s.xlen (v.setWidth 16))

/-- c.sb, store byte (49_zc_code_size.md R559). -/
def execCSb (rs1 rs2 : CRegIdx) (uimm : BitVec 2) (s : State) : Result :=
  s.storeX 2 (effAddr s.xlen (s.getX (creg rs1)) (zext uimm)) 1 (s.getX (creg rs2))

/-- c.sh, store halfword (49_zc_code_size.md R560). -/
def execCSh (rs1 rs2 : CRegIdx) (uimm : BitVec 1) (s : State) : Result :=
  s.storeX 2 (effAddr s.xlen (s.getX (creg rs1)) (zext (uimm ++ 0#1))) 2 (s.getX (creg rs2))

/-- c.zext.b, zero-extend byte (49_zc_code_size.md R561). -/
def execCZextB (rsd : CRegIdx) (s : State) : Result := .next (s.writeX 2 (creg rsd) (zext ((s.getX (creg rsd)).setWidth 8)))

/-- c.sext.b, sign-extend byte (49_zc_code_size.md R562). -/
def execCSextB (rsd : CRegIdx) (s : State) : Result :=
  .next (s.writeX 2 (creg rsd) (sext s.xlen ((s.getX (creg rsd)).setWidth 8)))

/-- c.zext.h, zero-extend halfword (49_zc_code_size.md R563). -/
def execCZextH (rsd : CRegIdx) (s : State) : Result := .next (s.writeX 2 (creg rsd) (zext ((s.getX (creg rsd)).setWidth 16)))

/-- c.sext.h, sign-extend halfword (49_zc_code_size.md R564). -/
def execCSextH (rsd : CRegIdx) (s : State) : Result :=
  .next (s.writeX 2 (creg rsd) (sext s.xlen ((s.getX (creg rsd)).setWidth 16)))

/-- c.zext.w on RV64, zero-extend word (49_zc_code_size.md R565). -/
def execCZextW (rsd : CRegIdx) (s : State) : Result := .next (s.writeX 2 (creg rsd) (zext ((s.getX (creg rsd)).setWidth 32)))

/-- c.not, bitwise not (49_zc_code_size.md R566). -/
def execCNot (rsd : CRegIdx) (s : State) : Result := s.alu1 2 (creg rsd) (fun _ a => ~~~a) (s.getX (creg rsd))

/-- c.mul, multiply, low half (49_zc_code_size.md R567). -/
def execCMul (rsd rs2 : CRegIdx) (s : State) : Result := s.alu2 2 (creg rsd) mulOp (s.getX (creg rsd)) (s.getX (creg rs2))

/-- cm.push, push registers and create stack frame (49_zc_code_size.md R568). -/
def execCmPush (rlist : BitVec 4) (spimm : BitVec 2) (s : State) : Result :=
  if rlist.toNat < 4 then s.stop (illegal (.cmPush rlist spimm))
  else
    finishSequence (pushAll (regList rlist) (effAddr s.xlen (s.getX sp) (-BitVec.ofNat 64 s.xlen.bytes)) s)
      (fun t => (t.setX sp (effAddr s.xlen (s.getX sp) (-stackAdj s.xlen rlist spimm))).advance 2)

/-- cm.pop, pop registers and release stack frame (49_zc_code_size.md R569). -/
def execCmPop (rlist : BitVec 4) (spimm : BitVec 2) (s : State) : Result :=
  if rlist.toNat < 4 then s.stop (illegal (.cmPop rlist spimm))
  else
    finishSequence (popAll (regList rlist) (topSlot s rlist spimm) s)
      (fun t => (t.setX sp (effAddr s.xlen (s.getX sp) (stackAdj s.xlen rlist spimm))).advance 2)

/-- cm.popretz, pop registers, zero a0 and return (49_zc_code_size.md R570). -/
def execCmPopretz (rlist : BitVec 4) (spimm : BitVec 2) (s : State) : Result :=
  if rlist.toNat < 4 then s.stop (illegal (.cmPopretz rlist spimm))
  else
    finishSequence (popAll (regList rlist) (topSlot s rlist spimm) s)
      (fun t =>
        { (t.setX a0 0#64).setX sp (effAddr s.xlen (s.getX sp) (stackAdj s.xlen rlist spimm)) with
          pc := t.getX ra &&& ~~~1#64 })

/-- cm.popret, pop registers and return (49_zc_code_size.md R571). -/
def execCmPopret (rlist : BitVec 4) (spimm : BitVec 2) (s : State) : Result :=
  if rlist.toNat < 4 then s.stop (illegal (.cmPopret rlist spimm))
  else
    finishSequence (popAll (regList rlist) (topSlot s rlist spimm) s)
      (fun t =>
        { t.setX sp (effAddr s.xlen (s.getX sp) (stackAdj s.xlen rlist spimm)) with
          pc := t.getX ra &&& ~~~1#64 })

/-- cm.mvsa01, move a0, a1 into two s registers (49_zc_code_size.md R572). -/
def execCmMvsa01 (r1s r2s : CRegIdx) (s : State) : Result :=
  if r1s = r2s then s.stop (illegal (.cmMvsa01 r1s r2s))
  else .next (((s.setX (sreg r1s) (s.getX a0)).setX (sreg r2s) (s.getX a1)).advance 2)

/-- cm.mva01s, move two s registers into a0, a1 (49_zc_code_size.md R573). -/
def execCmMva01s (r1s r2s : CRegIdx) (s : State) : Result :=
  .next (((s.setX a0 (s.getX (sreg r1s))).setX a1 (s.getX (sreg r2s))).advance 2)

/-- cm.jt, jump via table (49_zc_code_size.md R574). -/
def execCmJt (index : BitVec 8) (s : State) : Result := s.tableJump (.cmJt index) index (fun t => t)

/-- cm.jalt, jump and link via table (49_zc_code_size.md R575). -/
def execCmJalt (index : BitVec 8) (s : State) : Result :=
  s.tableJump (.cmJalt index) index (fun t => t.setX ra (effAddr s.xlen s.pc 2#64))

end Sys2Proof.Machine
end

