-- ==== Sys2Proof/Machine/Float.lean ====
section
/-! DEFINITION. The numeric functions of 44_f_single.md R300 to R310, exact: every operation computes the mathematical result as a
dyadic rational (with one sticky bit below it where it is not one) and rounds it once. IEEE 754-2008 as those rules describe it;
the spec's decision D20 lets a model implement it or keep it abstract, and this one implements it (log 7). A value of a format is
its bits in the low end of a Word. -/

namespace Sys2Proof.Machine

/-- The width of a format in bits (44_f_single.md R300). -/
def FloatFormat.width : FloatFormat → Nat
  | .H => 16
  | .S => 32
  | .D => 64

/-- The width of the fraction field (44_f_single.md R300). -/
def FloatFormat.fracBits : FloatFormat → Nat
  | .H => 10
  | .S => 23
  | .D => 52

/-- The exponent bias (44_f_single.md R300). -/
def FloatFormat.bias : FloatFormat → Nat
  | .H => 15
  | .S => 127
  | .D => 1023

/-- The width of the exponent field. -/
def FloatFormat.expBits (fmt : FloatFormat) : Nat := fmt.width - 1 - fmt.fracBits

/-- The low W bits of a word. -/
def FloatFormat.keep : FloatFormat → Word → Word
  | .H, w => (w.setWidth 16).setWidth 64
  | .S, w => (w.setWidth 32).setWidth 64
  | .D, w => w

/-- The canonical NaN: positive, quiet, all other fraction bits zero (44_f_single.md R300). -/
def FloatFormat.nan : FloatFormat → Word
  | .H => 0x7e00#64
  | .S => 0x7fc00000#64
  | .D => 0x7ff8000000000000#64

/-- The bits of +infinity, and the least pattern that is not finite (44_f_single.md R300). -/
def FloatFormat.infBits (fmt : FloatFormat) : Nat := (2 ^ fmt.expBits - 1) * 2 ^ fmt.fracBits

/-- The exponent of the unit of a subnormal: the least subnormal is 2 to this power (44_f_single.md R300). -/
def FloatFormat.unitExp (fmt : FloatFormat) : Int := 1 - (fmt.bias : Int) - (fmt.fracBits : Int)

/-- `box_P`: the value with every higher bit up to FLEN set (44_f_single.md R301, 10_state.md R30). -/
def box (ext : Ext) (fmt : FloatFormat) (v : Word) : Word :=
  cutF ext (fmt.keep v ||| (BitVec.allOnes 64 <<< fmt.width))

/-- `unbox_P`: the low bits of a correctly boxed register, else the canonical NaN (44_f_single.md R301). -/
def unbox (ext : Ext) (fmt : FloatFormat) (r : Word) : Word :=
  if r >>> fmt.width = cutF ext (BitVec.allOnes 64) >>> fmt.width then fmt.keep r else fmt.nan

/-- The sign bit of a value of a format. -/
def signBit (fmt : FloatFormat) (v : Word) : Bool := v.getLsbD (fmt.width - 1)

/-- The bits of a value without its sign. -/
def magnitude (fmt : FloatFormat) (v : Word) : Nat := v.toNat % 2 ^ (fmt.width - 1)

/-- The value with the given sign and the given bits below it. -/
def withSign (fmt : FloatFormat) (sign : Bool) (mag : Nat) : Word :=
  BitVec.ofNat 64 (mag + (if sign then 2 ^ (fmt.width - 1) else 0))

/-- `neg_P`: the value with its sign bit inverted, NaN and zero included (44_f_single.md R305). -/
def negFloat (fmt : FloatFormat) (v : Word) : Word := withSign fmt (!signBit fmt v) (magnitude fmt v)

/-- What the bits of a format stand for (44_f_single.md R300). -/
inductive FpVal where
  | nan (signaling : Bool)
  | inf (sign : Bool)
  | zero (sign : Bool)
  /-- The value (-1)^sign * mant * 2^exp, mant not zero. -/
  | finite (sign : Bool) (mant : Nat) (exp : Int)
  deriving DecidableEq, Repr

/-- Reading the bits of a format (44_f_single.md R300). -/
def unpack (fmt : FloatFormat) (v : Word) : FpVal :=
  let sign := signBit fmt v
  let mag := magnitude fmt v
  let expField := mag / 2 ^ fmt.fracBits
  let frac := mag % 2 ^ fmt.fracBits
  if expField = 2 ^ fmt.expBits - 1 then
    if frac = 0 then .inf sign else .nan (!frac.testBit (fmt.fracBits - 1))
  else if expField = 0 then
    if frac = 0 then .zero sign else .finite sign frac fmt.unitExp
  else .finite sign (2 ^ fmt.fracBits + frac) (fmt.unitExp + (expField - 1 : Nat))

/-- Whether a value is a NaN. -/
def FpVal.isNan : FpVal → Bool
  | .nan _ => true
  | _ => false

/-- Whether a value is a signaling NaN. -/
def FpVal.isSignaling : FpVal → Bool
  | .nan signaling => signaling
  | _ => false

/-- Whether a discarded part rounds the magnitude up: q the kept part, r the discarded part of 2^k (44_f_single.md R302). -/
def roundsUp (rm : RoundingMode) (sign : Bool) (q r k : Nat) : Bool :=
  match rm with
  | .rne => decide (2 * r > 2 ^ k) || (decide (2 * r = 2 ^ k) && q % 2 == 1)
  | .rtz => false
  | .rdn => sign && r != 0
  | .rup => !sign && r != 0
  | .rmm => decide (2 * r ≥ 2 ^ k)

/-- The magnitude mant * 2^exp in whole units of 2^grid, rounded, and whether that is inexact. -/
def roundToGrid (rm : RoundingMode) (sign : Bool) (mant : Nat) (exp grid : Int) : Nat × Bool :=
  if grid ≤ exp then (mant * 2 ^ (exp - grid).toNat, false)
  else
    let k := (grid - exp).toNat
    let q := mant / 2 ^ k
    let r := mant % 2 ^ k
    (q + (if roundsUp rm sign q r k then 1 else 0), r != 0)

/-- The result of an overflow: infinity or the largest finite number as the direction dictates (44_f_single.md R304 (d)). -/
def overflowMagnitude (fmt : FloatFormat) (rm : RoundingMode) (sign : Bool) : Nat :=
  let toInf := match rm with
    | .rne => true
    | .rmm => true
    | .rtz => false
    | .rdn => sign
    | .rup => !sign
  if toInf then fmt.infBits else fmt.infBits - 1

/-- Rounding (-1)^sign * mant * 2^exp, mant not zero, to a format: the bits and the flags (44_f_single.md R304 (d) to (g)). The
spacing of the format near the value is 2^grid; `tiny` asks whether the value rounded with an unbounded exponent lies below the
least normal number. -/
def roundFloat (fmt : FloatFormat) (rm : RoundingMode) (sign : Bool) (mant : Nat) (exp : Int) : Word × FpFlags :=
  let top : Int := exp + (mant.log2 : Int)
  let fine : Int := top - (fmt.fracBits : Int)
  let grid : Int := max fine fmt.unitExp
  let (q, inexact) := roundToGrid rm sign mant exp grid
  let mag := (grid - fmt.unitExp).toNat * 2 ^ fmt.fracBits + q
  if mag ≥ fmt.infBits then (withSign fmt sign (overflowMagnitude fmt rm sign), flagOF ||| flagNX)
  else
    let (qFine, _) := roundToGrid rm sign mant exp fine
    let minNormalExp : Int := fmt.unitExp + (fmt.fracBits : Int)
    let tiny := decide (top < minNormalExp - 1)
      || (decide (top = minNormalExp - 1) && decide (qFine < 2 ^ (fmt.fracBits + 1)))
    (withSign fmt sign mag, flagIf inexact flagNX ||| flagIf (inexact && tiny) flagUF)

/-- Appending a sticky bit: a value strictly between mant and mant + 1 units is held as 2 * mant + 1 half units. -/
def jam (mant : Nat) (sticky : Bool) : Nat := 2 * mant + (if sticky then 1 else 0)

/-- The result of an operation that gives a NaN: the canonical NaN, with NV when it is invalid or an operand signals
(44_f_single.md R304 (a), (b)). -/
def nanResult (fmt : FloatFormat) (invalid : Bool) : Word × FpFlags := (fmt.nan, flagIf invalid flagNV)

/-- An infinity, no flag. -/
def infResult (fmt : FloatFormat) (sign : Bool) : Word × FpFlags := (withSign fmt sign fmt.infBits, 0#5)

/-- A zero, no flag. -/
def zeroResult (fmt : FloatFormat) (sign : Bool) : Word × FpFlags := (withSign fmt sign 0, 0#5)

/-- The sign of an exact zero sum of operands of different signs (44_f_single.md R304 (h)). -/
def zeroSumSign (rm : RoundingMode) : Bool := rm == .rdn

/-- (-1)^sign * mant as an integer. -/
def signedMant (sign : Bool) (mant : Nat) : Int := if sign then -(mant : Int) else mant

/-- The exact sum of two finite nonzero values, rounded once. -/
def addFinite (fmt : FloatFormat) (rm : RoundingMode) (sa : Bool) (ma : Nat) (ea : Int) (sb : Bool) (mb : Nat) (eb : Int) :
    Word × FpFlags :=
  let e := min ea eb
  let sum := signedMant sa (ma * 2 ^ (ea - e).toNat) + signedMant sb (mb * 2 ^ (eb - e).toNat)
  if sum = 0 then zeroResult fmt (zeroSumSign rm) else roundFloat fmt rm (decide (sum < 0)) sum.natAbs e

/-- The sum of two values of the extended reals, neither a NaN, rounded once (44_f_single.md R304). -/
def addVal (fmt : FloatFormat) (rm : RoundingMode) (a b : FpVal) : Word × FpFlags :=
  match a, b with
  | .inf sa, .inf sb => if sa = sb then infResult fmt sa else nanResult fmt true
  | .inf sa, _ => infResult fmt sa
  | _, .inf sb => infResult fmt sb
  | .zero sa, .zero sb => zeroResult fmt (if sa = sb then sa else zeroSumSign rm)
  | .zero _, .finite sb mb eb => roundFloat fmt rm sb mb eb
  | .finite sa ma ea, .zero _ => roundFloat fmt rm sa ma ea
  | .finite sa ma ea, .finite sb mb eb => addFinite fmt rm sa ma ea sb mb eb
  | .nan s, _ => nanResult fmt s
  | _, .nan s => nanResult fmt s

/-- `fp_add_P` (44_f_single.md R304). -/
def fpAdd (fmt : FloatFormat) (rm : RoundingMode) (a b : Word) : Word × FpFlags :=
  let x := unpack fmt a
  let y := unpack fmt b
  if x.isNan || y.isNan then nanResult fmt (x.isSignaling || y.isSignaling) else addVal fmt rm x y

/-- `fp_sub_P`: the sum with the second operand's sign inverted (44_f_single.md R304). -/
def fpSub (fmt : FloatFormat) (rm : RoundingMode) (a b : Word) : Word × FpFlags :=
  fpAdd fmt rm a (negFloat fmt b)

/-- The exact product of two values, or none where it is invalid (0 * infinity) or an operand is a NaN
(44_f_single.md R304 (b), (h)). -/
def mulVal (a b : FpVal) : Option FpVal :=
  match a, b with
  | .inf sa, .inf sb => some (.inf (sa != sb))
  | .inf sa, .finite sb _ _ => some (.inf (sa != sb))
  | .finite sa _ _, .inf sb => some (.inf (sa != sb))
  | .zero sa, .zero sb => some (.zero (sa != sb))
  | .zero sa, .finite sb _ _ => some (.zero (sa != sb))
  | .finite sa _ _, .zero sb => some (.zero (sa != sb))
  | .finite sa ma ea, .finite sb mb eb => some (.finite (sa != sb) (ma * mb) (ea + eb))
  | _, _ => none

/-- A value of the extended reals rounded to a format. -/
def roundVal (fmt : FloatFormat) (rm : RoundingMode) (v : FpVal) : Word × FpFlags :=
  match v with
  | .nan s => nanResult fmt s
  | .inf s => infResult fmt s
  | .zero s => zeroResult fmt s
  | .finite s m e => roundFloat fmt rm s m e

/-- `fp_mul_P` (44_f_single.md R304). -/
def fpMul (fmt : FloatFormat) (rm : RoundingMode) (a b : Word) : Word × FpFlags :=
  let x := unpack fmt a
  let y := unpack fmt b
  if x.isNan || y.isNan then nanResult fmt (x.isSignaling || y.isSignaling)
  else
    match mulVal x y with
    | some p => roundVal fmt rm p
    | none => nanResult fmt true

/-- `fp_fma_P`: the product exact, one rounding; infinity times zero is invalid even when the addend is a quiet NaN
(44_f_single.md R305). -/
def fpFma (fmt : FloatFormat) (rm : RoundingMode) (a b c : Word) : Word × FpFlags :=
  let x := unpack fmt a
  let y := unpack fmt b
  let z := unpack fmt c
  let signaling := x.isSignaling || y.isSignaling || z.isSignaling
  if x.isNan || y.isNan then nanResult fmt signaling
  else
    match mulVal x y with
    | none => nanResult fmt true
    | some p => if z.isNan then nanResult fmt signaling else addVal fmt rm p z

/-- The quotient of two finite nonzero values with enough bits and a sticky bit, rounded once. -/
def divFinite (fmt : FloatFormat) (rm : RoundingMode) (sign : Bool) (ma : Nat) (ea : Int) (mb : Nat) (eb : Int) :
    Word × FpFlags :=
  let k := fmt.fracBits + 3 + mb.log2
  let n := ma * 2 ^ k
  roundFloat fmt rm sign (jam (n / mb) (n % mb != 0)) (ea - eb - (k : Int) - 1)

/-- `fp_div_P` (44_f_single.md R304 (b), (c)). -/
def fpDiv (fmt : FloatFormat) (rm : RoundingMode) (a b : Word) : Word × FpFlags :=
  let x := unpack fmt a
  let y := unpack fmt b
  match x, y with
  | .nan s, v => nanResult fmt (s || v.isSignaling)
  | v, .nan s => nanResult fmt (s || v.isSignaling)
  | .inf _, .inf _ => nanResult fmt true
  | .zero _, .zero _ => nanResult fmt true
  | .inf sa, .zero sb => infResult fmt (sa != sb)
  | .inf sa, .finite sb _ _ => infResult fmt (sa != sb)
  | .zero sa, .inf sb => zeroResult fmt (sa != sb)
  | .zero sa, .finite sb _ _ => zeroResult fmt (sa != sb)
  | .finite sa _ _, .inf sb => zeroResult fmt (sa != sb)
  | .finite sa _ _, .zero sb => ((infResult fmt (sa != sb)).1, flagDZ)
  | .finite sa ma ea, .finite sb mb eb => divFinite fmt rm (sa != sb) ma ea mb eb

/-- The integer square root of n, bits k - 1 down to 0 added to root: the greatest such r with r * r ≤ n. -/
def isqrt (n : Nat) : Nat → Nat → Nat
  | 0, root => root
  | k + 1, root => isqrt n k (if (root + 2 ^ k) * (root + 2 ^ k) ≤ n then root + 2 ^ k else root)

/-- The root of a positive finite value with enough bits and a sticky bit, rounded once: mant * 2^exp is brought to an even
exponent. -/
def sqrtFinite (fmt : FloatFormat) (rm : RoundingMode) (mant : Nat) (exp : Int) : Word × FpFlags :=
  let odd := (exp % 2).toNat
  let k := fmt.fracBits + 3
  let n := mant * 2 ^ (2 * k + odd)
  let root := isqrt n (n.log2 / 2 + 1) 0
  roundFloat fmt rm false (jam root (root * root != n)) ((exp - (odd : Int)) / 2 - (k : Int) - 1)

/-- `fp_sqrt_P` (44_f_single.md R304 (b), (h)). -/
def fpSqrt (fmt : FloatFormat) (rm : RoundingMode) (a : Word) : Word × FpFlags :=
  match unpack fmt a with
  | .nan s => nanResult fmt s
  | .zero s => zeroResult fmt s
  | .inf false => infResult fmt false
  | .inf true => nanResult fmt true
  | .finite true _ _ => nanResult fmt true
  | .finite false m e => sqrtFinite fmt rm m e

/-- The place of a value that is no NaN in the numeric order of its format, both zeros at 0. -/
def orderKey (fmt : FloatFormat) (v : Word) : Int := signedMant (signBit fmt v) (magnitude fmt v)

/-- Whether a is before b in the order of min and max, where -0 is smaller than +0 (44_f_single.md R306). -/
def orderedBefore (fmt : FloatFormat) (a b : Word) : Bool :=
  decide (orderKey fmt a < orderKey fmt b)
    || (decide (orderKey fmt a = orderKey fmt b) && signBit fmt a && !signBit fmt b)

/-- `fp_min_P` and `fp_max_P` but for which of two numbers is taken (44_f_single.md R306). -/
def minMax (fmt : FloatFormat) (pickFirst : Bool) (a b : Word) : Word × FpFlags :=
  let x := unpack fmt a
  let y := unpack fmt b
  let v := if x.isNan && y.isNan then fmt.nan else if x.isNan then b else if y.isNan then a else if pickFirst then a else b
  (v, flagIf (x.isSignaling || y.isSignaling) flagNV)

/-- `fp_min_P` (44_f_single.md R306). -/
def fpMin (fmt : FloatFormat) (a b : Word) : Word × FpFlags := minMax fmt (orderedBefore fmt a b) a b

/-- `fp_max_P` (44_f_single.md R306). -/
def fpMax (fmt : FloatFormat) (a b : Word) : Word × FpFlags := minMax fmt (orderedBefore fmt b a) a b

/-- The least value of an n-bit integer type (44_f_single.md R307). -/
def intMin (n : Nat) (signed : Bool) : Int := if signed then -(2 ^ (n - 1) : Int) else 0

/-- The largest value of an n-bit integer type (44_f_single.md R307). -/
def intMax (n : Nat) (signed : Bool) : Int := if signed then 2 ^ (n - 1) - 1 else 2 ^ n - 1

/-- `fp_to_int_P` (44_f_single.md R307). -/
def fpToInt (fmt : FloatFormat) (rm : RoundingMode) (a : Word) (n : Nat) (signed : Bool) : Int × FpFlags :=
  match unpack fmt a with
  | .nan _ => (intMax n signed, flagNV)
  | .inf false => (intMax n signed, flagNV)
  | .inf true => (intMin n signed, flagNV)
  | .zero _ => (0, 0#5)
  | .finite sign m e =>
    let (q, inexact) := roundToGrid rm sign m e 0
    let r := signedMant sign q
    if intMax n signed < r then (intMax n signed, flagNV)
    else if r < intMin n signed then (intMin n signed, flagNV)
    else (r, flagIf inexact flagNX)

/-- `int_to_fp_P` (44_f_single.md R308). -/
def intToFp (fmt : FloatFormat) (rm : RoundingMode) (i : Int) : Word × FpFlags :=
  if i = 0 then zeroResult fmt false else roundFloat fmt rm (decide (i < 0)) i.natAbs 0

/-- `fp_convert_P_to_Q` (44_f_single.md R308). -/
def fpConvert (src dst : FloatFormat) (rm : RoundingMode) (a : Word) : Word × FpFlags :=
  roundVal dst rm (unpack src a)

/-- The three comparisons. -/
inductive FpRelation where
  | eq | lt | le
  deriving DecidableEq, Repr

/-- feq, flt and fle: the truth of the relation and the flags; `quietInvalid` is FLT_FLE_QNAN_INVALID
(44_f_single.md R309). -/
def fpCompare (fmt : FloatFormat) (quietInvalid : Bool) (rel : FpRelation) (a b : Word) : Bool × FpFlags :=
  let x := unpack fmt a
  let y := unpack fmt b
  let anyNan := x.isNan || y.isNan
  let invalid := x.isSignaling || y.isSignaling || (anyNan && quietInvalid && rel != .eq)
  let holds := match rel with
    | .eq => decide (orderKey fmt a = orderKey fmt b)
    | .lt => decide (orderKey fmt a < orderKey fmt b)
    | .le => decide (orderKey fmt a ≤ orderKey fmt b)
  (!anyNan && holds, flagIf invalid flagNV)

/-- `class_P`, the number of the bit fclass sets (44_f_single.md R310). -/
def fpClass (fmt : FloatFormat) (a : Word) : Nat :=
  let subnormal := decide (magnitude fmt a < 2 ^ fmt.fracBits)
  match unpack fmt a with
  | .inf true => 0
  | .finite true _ _ => if subnormal then 2 else 1
  | .zero true => 3
  | .zero false => 4
  | .finite false _ _ => if subnormal then 5 else 6
  | .inf false => 7
  | .nan true => 8
  | .nan false => 9

end Sys2Proof.Machine
end

