-- ==== Sys2Proof/Machine/FloatOps.lean ====
section
/-! DEFINITION. The forms of the floating-point instructions, over the numeric functions of Float.lean. Each takes the instruction
itself for the trap value of illegal-instruction. -/

namespace Sys2Proof.Machine

/-- The gate of mstatus.FS: the instruction is illegal while the unit is off (10_state.md R34, 60_exceptions.md R603 (c)). -/
def State.fpGate (s : State) (i : Instr) (body : Result) : Result := if s.fpOff then s.stop (illegal i) else body

/-- The gate of FS and of the rounding mode: illegal for a reserved rm or frm (44_f_single.md R302). -/
def State.fpRounded (s : State) (i : Instr) (rm : BitVec 3) (body : RoundingMode → Result) : Result :=
  s.fpGate i
    (match s.effectiveRm rm with
     | none => s.stop (illegal i)
     | some mode => body mode)

/-- A floating-point operand through the NaN-box check (44_f_single.md R301). -/
def State.operand (s : State) (fmt : FloatFormat) (r : RegIdx) : Word := unbox s.cfg.ext fmt (s.getF r)

/-- A floating-point result boxed into rd and its flags accrued (44_f_single.md R301, R303). -/
def State.writeFp (s : State) (fmt : FloatFormat) (rd : RegIdx) (result : Word × FpFlags) : State :=
  (((s.orFlags result.2).setF rd (box s.cfg.ext fmt result.1))).advance 4

/-- A floating-point bit pattern boxed into rd by an n-byte instruction, no flag touched (44_f_single.md R311). -/
def State.writeRaw (s : State) (n : Nat) (fmt : FloatFormat) (rd : RegIdx) (v : Word) : State :=
  (s.setF rd (box s.cfg.ext fmt v)).advance n

/-- The fused forms: fma of the operands after their signs are adapted (44_f_single.md R305, R312 to R315). -/
def State.fpFused (s : State) (i : Instr) (fmt : FloatFormat) (rm : BitVec 3) (rd rs1 rs2 rs3 : RegIdx)
    (negProduct negAddend : Bool) : Result :=
  s.fpRounded i rm (fun mode =>
    let a := s.operand fmt rs1
    let b := s.operand fmt rs2
    let c := s.operand fmt rs3
    .next (s.writeFp fmt rd
      (fpFma fmt mode (if negProduct then negFloat fmt a else a) b (if negAddend then negFloat fmt c else c))))

/-- fadd, fsub, fmul, fdiv (44_f_single.md R316 to R319). -/
def State.fpArith (s : State) (i : Instr) (fmt : FloatFormat) (rm : BitVec 3) (rd rs1 rs2 : RegIdx)
    (op : FloatFormat → RoundingMode → Word → Word → Word × FpFlags) : Result :=
  s.fpRounded i rm (fun mode => .next (s.writeFp fmt rd (op fmt mode (s.operand fmt rs1) (s.operand fmt rs2))))

/-- fsqrt (44_f_single.md R320). -/
def State.fpRoot (s : State) (i : Instr) (fmt : FloatFormat) (rm : BitVec 3) (rd rs1 : RegIdx) : Result :=
  s.fpRounded i rm (fun mode => .next (s.writeFp fmt rd (fpSqrt fmt mode (s.operand fmt rs1))))

/-- fsgnj, fsgnjn, fsgnjx: the bits of the first operand under a sign made from both signs (44_f_single.md R321 to R323). -/
def State.fpSign (s : State) (i : Instr) (fmt : FloatFormat) (rd rs1 rs2 : RegIdx) (sign : Bool → Bool → Bool) : Result :=
  s.fpGate i
    (let a := s.operand fmt rs1
     let b := s.operand fmt rs2
     .next (s.writeRaw 4 fmt rd (withSign fmt (sign (signBit fmt a) (signBit fmt b)) (magnitude fmt a))))

/-- fmin and fmax (44_f_single.md R324, R325). -/
def State.fpSelect (s : State) (i : Instr) (fmt : FloatFormat) (rd rs1 rs2 : RegIdx)
    (op : FloatFormat → Word → Word → Word × FpFlags) : Result :=
  s.fpGate i (.next (s.writeFp fmt rd (op fmt (s.operand fmt rs1) (s.operand fmt rs2))))

/-- An integer result of XLEN bits written to rd and its flags accrued. -/
def State.writeInt (s : State) (rd : RegIdx) (v : Word) (flags : FpFlags) : State :=
  ((s.orFlags flags).setX rd v).advance 4

/-- Conversion to a 32-bit integer, sign-extended for the unsigned types too (44_f_single.md R307, R326, R327). -/
def State.fpToWord (s : State) (i : Instr) (fmt : FloatFormat) (rm : BitVec 3) (rd rs1 : RegIdx) (signed : Bool) : Result :=
  s.fpRounded i rm (fun mode =>
    let r := fpToInt fmt mode (s.operand fmt rs1) 32 signed
    .next (s.writeInt rd (sext s.xlen (BitVec.ofInt 32 r.1)) r.2))

/-- Conversion to a 64-bit integer (44_f_single.md R307, R338, R339). -/
def State.fpToLong (s : State) (i : Instr) (fmt : FloatFormat) (rm : BitVec 3) (rd rs1 : RegIdx) (signed : Bool) : Result :=
  s.fpRounded i rm (fun mode =>
    let r := fpToInt fmt mode (s.operand fmt rs1) 64 signed
    .next (s.writeInt rd (BitVec.ofInt 64 r.1) r.2))

/-- Conversion from an integer (44_f_single.md R308, R333, R334, R340, R341). -/
def State.fpFromInt (s : State) (i : Instr) (fmt : FloatFormat) (rm : BitVec 3) (rd : RegIdx) (v : Int) : Result :=
  s.fpRounded i rm (fun mode => .next (s.writeFp fmt rd (intToFp fmt mode v)))

/-- Conversion between formats (44_f_single.md R308). -/
def State.fpResize (s : State) (i : Instr) (src dst : FloatFormat) (rm : BitVec 3) (rd rs1 : RegIdx) : Result :=
  s.fpRounded i rm (fun mode => .next (s.writeFp dst rd (fpConvert src dst mode (s.operand src rs1))))

/-- feq, flt, fle (44_f_single.md R309, R329 to R331). -/
def State.fpTest (s : State) (i : Instr) (fmt : FloatFormat) (rd rs1 rs2 : RegIdx) (rel : FpRelation) : Result :=
  s.fpGate i
    (let r := fpCompare fmt s.cfg.fltFleQnanInvalid rel (s.operand fmt rs1) (s.operand fmt rs2)
     .next (s.writeInt rd (ofBool r.1) r.2))

/-- fclass (44_f_single.md R310, R332). -/
def State.fpClassify (s : State) (i : Instr) (fmt : FloatFormat) (rd rs1 : RegIdx) : Result :=
  s.fpGate i (.next (s.writeX 4 rd (BitVec.ofNat 64 (2 ^ fpClass fmt (s.operand fmt rs1)))))

/-- fmv.x: a raw bit pattern, sign-extended, to an integer register (44_f_single.md R311, R328). -/
def State.fpToBits (s : State) (i : Instr) (fmt : FloatFormat) (rd rs1 : RegIdx) : Result :=
  s.fpGate i
    (.next (s.writeX 4 rd
      (match fmt with
       | .H => sext s.xlen ((s.getF rs1).setWidth 16)
       | .S => sext s.xlen ((s.getF rs1).setWidth 32)
       | .D => s.getF rs1)))

/-- fmv to a floating-point register: a raw bit pattern, boxed (44_f_single.md R311, R335). -/
def State.fpFromBits (s : State) (i : Instr) (fmt : FloatFormat) (rd rs1 : RegIdx) : Result :=
  s.fpGate i (.next (s.writeRaw 4 fmt rd (s.getX rs1)))

/-- A floating-point load by an n-byte instruction (44_f_single.md R336). -/
def State.fpLoad (s : State) (i : Instr) (n : Nat) (fmt : FloatFormat) (rd : RegIdx) (addr : Word) : Result :=
  s.fpGate i
    (s.conclude
      (match s.load addr (fmt.width / 8) with
       | .error e => .error e
       | .ok v => .ok (s.writeRaw n fmt rd v)))

/-- A floating-point store by an n-byte instruction: the low bits of the register as they are (44_f_single.md R337). -/
def State.fpStore (s : State) (i : Instr) (n : Nat) (fmt : FloatFormat) (rs2 : RegIdx) (addr : Word) : Result :=
  s.fpGate i (s.storeX n addr (fmt.width / 8) (s.getF rs2))

end Sys2Proof.Machine
end

