-- ==== Sys2Proof/Machine/Compressed.lean ====
section
/-! DEFINITION. The C extension (46_c_compressed.md R395 to R436): each instruction behaves as its expansion, is 2 bytes long and links to
pc + 2 (R390). -/

namespace Sys2Proof.Machine

/-- c.addi4spn, add scaled immediate to stack pointer (46_c_compressed.md R395). -/
def execCAddi4spn (rd : CRegIdx) (nzuimm : BitVec 8) (s : State) : Result :=
  s.alu2 2 (creg rd) addOp (s.getX sp) (zext (nzuimm ++ 0#2))

/-- c.fld, load double-precision value (46_c_compressed.md R396). -/
def execCFld (rd rs1 : CRegIdx) (uimm : BitVec 5) (s : State) : Result :=
  s.fpLoad (.cFld rd rs1 uimm) 2 .D (creg rd) (effAddr s.xlen (s.getX (creg rs1)) (zext (uimm ++ 0#3)))

/-- c.lw, load word (46_c_compressed.md R397). -/
def execCLw (rd rs1 : CRegIdx) (uimm : BitVec 5) (s : State) : Result :=
  s.loadX 2 (creg rd) (effAddr s.xlen (s.getX (creg rs1)) (zext (uimm ++ 0#2))) 4 (fun v => sext s.xlen (v.setWidth 32))

/-- c.flw on RV32, load single-precision value (46_c_compressed.md R398). -/
def execCFlw (rd rs1 : CRegIdx) (uimm : BitVec 5) (s : State) : Result :=
  s.fpLoad (.cFlw rd rs1 uimm) 2 .S (creg rd) (effAddr s.xlen (s.getX (creg rs1)) (zext (uimm ++ 0#2)))

/-- c.ld on RV64, load doubleword (46_c_compressed.md R399). -/
def execCLd (rd rs1 : CRegIdx) (uimm : BitVec 5) (s : State) : Result :=
  s.loadX 2 (creg rd) (effAddr s.xlen (s.getX (creg rs1)) (zext (uimm ++ 0#3))) 8 id

/-- c.fsd, store double-precision value (46_c_compressed.md R400). -/
def execCFsd (rs1 rs2 : CRegIdx) (uimm : BitVec 5) (s : State) : Result :=
  s.fpStore (.cFsd rs1 rs2 uimm) 2 .D (creg rs2) (effAddr s.xlen (s.getX (creg rs1)) (zext (uimm ++ 0#3)))

/-- c.sw, store word (46_c_compressed.md R401). -/
def execCSw (rs1 rs2 : CRegIdx) (uimm : BitVec 5) (s : State) : Result :=
  s.storeX 2 (effAddr s.xlen (s.getX (creg rs1)) (zext (uimm ++ 0#2))) 4 (s.getX (creg rs2))

/-- c.fsw on RV32, store single-precision value (46_c_compressed.md R402). -/
def execCFsw (rs1 rs2 : CRegIdx) (uimm : BitVec 5) (s : State) : Result :=
  s.fpStore (.cFsw rs1 rs2 uimm) 2 .S (creg rs2) (effAddr s.xlen (s.getX (creg rs1)) (zext (uimm ++ 0#2)))

/-- c.sd on RV64, store doubleword (46_c_compressed.md R403). -/
def execCSd (rs1 rs2 : CRegIdx) (uimm : BitVec 5) (s : State) : Result :=
  s.storeX 2 (effAddr s.xlen (s.getX (creg rs1)) (zext (uimm ++ 0#3))) 8 (s.getX (creg rs2))

/-- c.nop, no operation (46_c_compressed.md R404). -/
def execCNop (_imm : BitVec 6) (s : State) : Result := .next (s.advance 2)

/-- c.addi, add immediate (46_c_compressed.md R405). -/
def execCAddi (rd : RegIdx) (imm : BitVec 6) (s : State) : Result := s.alu2 2 rd addOp (s.getX rd) (sext s.xlen imm)

/-- c.jal on RV32, jump and link (46_c_compressed.md R406). -/
def execCJal (imm : BitVec 11) (s : State) : Result :=
  .next { s.setX ra (effAddr s.xlen s.pc 2#64) with pc := effAddr s.xlen s.pc (sext s.xlen (imm ++ 0#1)) }

/-- c.addiw on RV64, add immediate word (46_c_compressed.md R407). -/
def execCAddiw (rd : RegIdx) (imm : BitVec 6) (s : State) : Result := s.aluWord 2 rd (addOp 32) (s.getX rd) (sext s.xlen imm)

/-- c.li, load immediate (46_c_compressed.md R408). -/
def execCLi (rd : RegIdx) (imm : BitVec 6) (s : State) : Result := .next (s.writeX 2 rd (sext s.xlen imm))

/-- c.addi16sp, add scaled immediate to stack pointer (46_c_compressed.md R409). -/
def execCAddi16sp (nzimm : BitVec 6) (s : State) : Result := s.alu2 2 sp addOp (s.getX sp) (sext s.xlen (nzimm ++ 0#4))

/-- c.lui, load upper immediate (46_c_compressed.md R410). -/
def execCLui (rd : RegIdx) (nzimm : BitVec 6) (s : State) : Result := .next (s.writeX 2 rd (sext s.xlen (nzimm ++ 0#12)))

/-- c.srli, shift right logical immediate (46_c_compressed.md R411). -/
def execCSrli (rd : CRegIdx) (shamt : BitVec 6) (s : State) : Result := s.alu2 2 (creg rd) srlOp (s.getX (creg rd)) (zext shamt)

/-- c.srai, shift right arithmetic immediate (46_c_compressed.md R412). -/
def execCSrai (rd : CRegIdx) (shamt : BitVec 6) (s : State) : Result := s.alu2 2 (creg rd) sraOp (s.getX (creg rd)) (zext shamt)

/-- c.andi, and immediate (46_c_compressed.md R413). -/
def execCAndi (rd : CRegIdx) (imm : BitVec 6) (s : State) : Result :=
  s.alu2 2 (creg rd) andOp (s.getX (creg rd)) (sext s.xlen imm)

/-- c.sub, subtract (46_c_compressed.md R414). -/
def execCSub (rd rs2 : CRegIdx) (s : State) : Result := s.alu2 2 (creg rd) subOp (s.getX (creg rd)) (s.getX (creg rs2))

/-- c.xor, exclusive or (46_c_compressed.md R415). -/
def execCXor (rd rs2 : CRegIdx) (s : State) : Result := s.alu2 2 (creg rd) xorOp (s.getX (creg rd)) (s.getX (creg rs2))

/-- c.or, or (46_c_compressed.md R416). -/
def execCOr (rd rs2 : CRegIdx) (s : State) : Result := s.alu2 2 (creg rd) orOp (s.getX (creg rd)) (s.getX (creg rs2))

/-- c.and, and (46_c_compressed.md R417). -/
def execCAnd (rd rs2 : CRegIdx) (s : State) : Result := s.alu2 2 (creg rd) andOp (s.getX (creg rd)) (s.getX (creg rs2))

/-- c.subw on RV64, subtract word (46_c_compressed.md R418). -/
def execCSubw (rd rs2 : CRegIdx) (s : State) : Result := s.aluWord 2 (creg rd) (subOp 32) (s.getX (creg rd)) (s.getX (creg rs2))

/-- c.addw on RV64, add word (46_c_compressed.md R419). -/
def execCAddw (rd rs2 : CRegIdx) (s : State) : Result := s.aluWord 2 (creg rd) (addOp 32) (s.getX (creg rd)) (s.getX (creg rs2))

/-- c.j, jump (46_c_compressed.md R420). -/
def execCJ (imm : BitVec 11) (s : State) : Result := .next { s with pc := effAddr s.xlen s.pc (sext s.xlen (imm ++ 0#1)) }

/-- c.beqz, branch if equal to zero (46_c_compressed.md R421). -/
def execCBeqz (rs1 : CRegIdx) (imm : BitVec 8) (s : State) : Result :=
  .next
    (if test2 s.xlen eqTest (s.getX (creg rs1)) 0#64 then { s with pc := effAddr s.xlen s.pc (sext s.xlen (imm ++ 0#1)) }
     else s.advance 2)

/-- c.bnez, branch if not equal to zero (46_c_compressed.md R422). -/
def execCBnez (rs1 : CRegIdx) (imm : BitVec 8) (s : State) : Result :=
  .next
    (if !test2 s.xlen eqTest (s.getX (creg rs1)) 0#64 then { s with pc := effAddr s.xlen s.pc (sext s.xlen (imm ++ 0#1)) }
     else s.advance 2)

/-- c.slli, shift left logical immediate (46_c_compressed.md R423). -/
def execCSlli (rd : RegIdx) (shamt : BitVec 6) (s : State) : Result := s.alu2 2 rd sllOp (s.getX rd) (zext shamt)

/-- c.fldsp, load double-precision value, stack-pointer relative (46_c_compressed.md R424). -/
def execCFldsp (rd : RegIdx) (uimm : BitVec 6) (s : State) : Result :=
  s.fpLoad (.cFldsp rd uimm) 2 .D rd (effAddr s.xlen (s.getX sp) (zext (uimm ++ 0#3)))

/-- c.lwsp, load word, stack-pointer relative (46_c_compressed.md R425). -/
def execCLwsp (rd : RegIdx) (uimm : BitVec 6) (s : State) : Result :=
  s.loadX 2 rd (effAddr s.xlen (s.getX sp) (zext (uimm ++ 0#2))) 4 (fun v => sext s.xlen (v.setWidth 32))

/-- c.flwsp on RV32, load single-precision value, stack-pointer relative (46_c_compressed.md R426). -/
def execCFlwsp (rd : RegIdx) (uimm : BitVec 6) (s : State) : Result :=
  s.fpLoad (.cFlwsp rd uimm) 2 .S rd (effAddr s.xlen (s.getX sp) (zext (uimm ++ 0#2)))

/-- c.ldsp on RV64, load doubleword, stack-pointer relative (46_c_compressed.md R427). -/
def execCLdsp (rd : RegIdx) (uimm : BitVec 6) (s : State) : Result :=
  s.loadX 2 rd (effAddr s.xlen (s.getX sp) (zext (uimm ++ 0#3))) 8 id

/-- c.jr, jump register (46_c_compressed.md R428). -/
def execCJr (rs1 : RegIdx) (s : State) : Result := .next { s with pc := s.getX rs1 &&& ~~~1#64 }

/-- c.mv, move register (46_c_compressed.md R429). -/
def execCMv (rd rs2 : RegIdx) (s : State) : Result := .next (s.writeX 2 rd (s.getX rs2))

/-- c.ebreak, breakpoint (46_c_compressed.md R430). -/
def execCEbreak (s : State) : Result := s.takeTrap .breakpoint s.pc

/-- c.jalr, jump and link register (46_c_compressed.md R431). -/
def execCJalr (rs1 : RegIdx) (s : State) : Result :=
  .next { s.setX ra (effAddr s.xlen s.pc 2#64) with pc := s.getX rs1 &&& ~~~1#64 }

/-- c.add, add register (46_c_compressed.md R432). -/
def execCAdd (rd rs2 : RegIdx) (s : State) : Result := s.alu2 2 rd addOp (s.getX rd) (s.getX rs2)

/-- c.fsdsp, store double-precision value, stack-pointer relative (46_c_compressed.md R433). -/
def execCFsdsp (rs2 : RegIdx) (uimm : BitVec 6) (s : State) : Result :=
  s.fpStore (.cFsdsp rs2 uimm) 2 .D rs2 (effAddr s.xlen (s.getX sp) (zext (uimm ++ 0#3)))

/-- c.swsp, store word, stack-pointer relative (46_c_compressed.md R434). -/
def execCSwsp (rs2 : RegIdx) (uimm : BitVec 6) (s : State) : Result :=
  s.storeX 2 (effAddr s.xlen (s.getX sp) (zext (uimm ++ 0#2))) 4 (s.getX rs2)

/-- c.fswsp on RV32, store single-precision value, stack-pointer relative (46_c_compressed.md R435). -/
def execCFswsp (rs2 : RegIdx) (uimm : BitVec 6) (s : State) : Result :=
  s.fpStore (.cFswsp rs2 uimm) 2 .S rs2 (effAddr s.xlen (s.getX sp) (zext (uimm ++ 0#2)))

/-- c.sdsp on RV64, store doubleword, stack-pointer relative (46_c_compressed.md R436). -/
def execCSdsp (rs2 : RegIdx) (uimm : BitVec 6) (s : State) : Result :=
  s.storeX 2 (effAddr s.xlen (s.getX sp) (zext (uimm ++ 0#3))) 8 (s.getX rs2)

end Sys2Proof.Machine
end

