-- ==== Sys2Proof/Machine/Control.lean ====
section
/-! DEFINITION. The jumps and branches of the base ISA (41_base_memory_control_rv64i.md R198 to R205). -/

namespace Sys2Proof.Machine

/-- jal, jump and link (41_base_memory_control_rv64i.md R198). -/
def execJal (rd : RegIdx) (imm : BitVec 20) (s : State) : Result :=
  s.jumpLink 4 rd (effAddr s.xlen s.pc (sext s.xlen (imm ++ 0#1)))

/-- jalr, jump and link register (41_base_memory_control_rv64i.md R199). -/
def execJalr (rd rs1 : RegIdx) (imm : BitVec 12) (s : State) : Result :=
  s.jumpLink 4 rd (effAddr s.xlen (s.getX rs1) (sext s.xlen imm) &&& ~~~1#64)

/-- beq, branch if equal (41_base_memory_control_rv64i.md R200). -/
def execBeq (rs1 rs2 : RegIdx) (imm : BitVec 12) (s : State) : Result :=
  s.branch 4 (test2 s.xlen eqTest (s.getX rs1) (s.getX rs2)) (sext s.xlen (imm ++ 0#1))

/-- bne, branch if not equal (41_base_memory_control_rv64i.md R201). -/
def execBne (rs1 rs2 : RegIdx) (imm : BitVec 12) (s : State) : Result :=
  s.branch 4 (!test2 s.xlen eqTest (s.getX rs1) (s.getX rs2)) (sext s.xlen (imm ++ 0#1))

/-- blt, branch if less than, signed (41_base_memory_control_rv64i.md R202). -/
def execBlt (rs1 rs2 : RegIdx) (imm : BitVec 12) (s : State) : Result :=
  s.branch 4 (test2 s.xlen ltSigned (s.getX rs1) (s.getX rs2)) (sext s.xlen (imm ++ 0#1))

/-- bge, branch if greater than or equal, signed (41_base_memory_control_rv64i.md R203). -/
def execBge (rs1 rs2 : RegIdx) (imm : BitVec 12) (s : State) : Result :=
  s.branch 4 (!test2 s.xlen ltSigned (s.getX rs1) (s.getX rs2)) (sext s.xlen (imm ++ 0#1))

/-- bltu, branch if less than, unsigned (41_base_memory_control_rv64i.md R204). -/
def execBltu (rs1 rs2 : RegIdx) (imm : BitVec 12) (s : State) : Result :=
  s.branch 4 (test2 s.xlen ltUnsigned (s.getX rs1) (s.getX rs2)) (sext s.xlen (imm ++ 0#1))

/-- bgeu, branch if greater than or equal, unsigned (41_base_memory_control_rv64i.md R205). -/
def execBgeu (rs1 rs2 : RegIdx) (imm : BitVec 12) (s : State) : Result :=
  s.branch 4 (!test2 s.xlen ltUnsigned (s.getX rs1) (s.getX rs2)) (sext s.xlen (imm ++ 0#1))

end Sys2Proof.Machine
end

