-- ==== Sys2Proof/Machine/Double.lean ====
section
/-! DEFINITION. The D extension (45_d_double.md R351 to R382). -/

namespace Sys2Proof.Machine

/-- fmadd.d, fused multiply-add, double (45_d_double.md R351). -/
def execFmaddD (rd rs1 rs2 rs3 : RegIdx) (rm : BitVec 3) (s : State) : Result :=
  s.fpFused (.fmaddD rd rs1 rs2 rs3 rm) .D rm rd rs1 rs2 rs3 false false

/-- fmsub.d, fused multiply-subtract, double (45_d_double.md R352). -/
def execFmsubD (rd rs1 rs2 rs3 : RegIdx) (rm : BitVec 3) (s : State) : Result :=
  s.fpFused (.fmsubD rd rs1 rs2 rs3 rm) .D rm rd rs1 rs2 rs3 false true

/-- fnmsub.d, negated fused multiply-subtract, double (45_d_double.md R353). -/
def execFnmsubD (rd rs1 rs2 rs3 : RegIdx) (rm : BitVec 3) (s : State) : Result :=
  s.fpFused (.fnmsubD rd rs1 rs2 rs3 rm) .D rm rd rs1 rs2 rs3 true false

/-- fnmadd.d, negated fused multiply-add, double (45_d_double.md R354). -/
def execFnmaddD (rd rs1 rs2 rs3 : RegIdx) (rm : BitVec 3) (s : State) : Result :=
  s.fpFused (.fnmaddD rd rs1 rs2 rs3 rm) .D rm rd rs1 rs2 rs3 true true

/-- fadd.d, add, double (45_d_double.md R355). -/
def execFaddD (rd rs1 rs2 : RegIdx) (rm : BitVec 3) (s : State) : Result :=
  s.fpArith (.faddD rd rs1 rs2 rm) .D rm rd rs1 rs2 fpAdd

/-- fsub.d, subtract, double (45_d_double.md R356). -/
def execFsubD (rd rs1 rs2 : RegIdx) (rm : BitVec 3) (s : State) : Result :=
  s.fpArith (.fsubD rd rs1 rs2 rm) .D rm rd rs1 rs2 fpSub

/-- fmul.d, multiply, double (45_d_double.md R357). -/
def execFmulD (rd rs1 rs2 : RegIdx) (rm : BitVec 3) (s : State) : Result :=
  s.fpArith (.fmulD rd rs1 rs2 rm) .D rm rd rs1 rs2 fpMul

/-- fdiv.d, divide, double (45_d_double.md R358). -/
def execFdivD (rd rs1 rs2 : RegIdx) (rm : BitVec 3) (s : State) : Result :=
  s.fpArith (.fdivD rd rs1 rs2 rm) .D rm rd rs1 rs2 fpDiv

/-- fsqrt.d, square root, double (45_d_double.md R359). -/
def execFsqrtD (rd rs1 : RegIdx) (rm : BitVec 3) (s : State) : Result := s.fpRoot (.fsqrtD rd rs1 rm) .D rm rd rs1

/-- fsgnj.d, sign injection, double (45_d_double.md R360). -/
def execFsgnjD (rd rs1 rs2 : RegIdx) (s : State) : Result := s.fpSign (.fsgnjD rd rs1 rs2) .D rd rs1 rs2 (fun _ b => b)

/-- fsgnjn.d, sign injection, negated, double (45_d_double.md R361). -/
def execFsgnjnD (rd rs1 rs2 : RegIdx) (s : State) : Result := s.fpSign (.fsgnjnD rd rs1 rs2) .D rd rs1 rs2 (fun _ b => !b)

/-- fsgnjx.d, sign injection, exclusive-or, double (45_d_double.md R362). -/
def execFsgnjxD (rd rs1 rs2 : RegIdx) (s : State) : Result := s.fpSign (.fsgnjxD rd rs1 rs2) .D rd rs1 rs2 (fun a b => a != b)

/-- fmin.d, minimum, double (45_d_double.md R363). -/
def execFminD (rd rs1 rs2 : RegIdx) (s : State) : Result := s.fpSelect (.fminD rd rs1 rs2) .D rd rs1 rs2 fpMin

/-- fmax.d, maximum, double (45_d_double.md R364). -/
def execFmaxD (rd rs1 rs2 : RegIdx) (s : State) : Result := s.fpSelect (.fmaxD rd rs1 rs2) .D rd rs1 rs2 fpMax

/-- fcvt.s.d, convert double to single (45_d_double.md R365). -/
def execFcvtSD (rd rs1 : RegIdx) (rm : BitVec 3) (s : State) : Result := s.fpResize (.fcvtSD rd rs1 rm) .D .S rm rd rs1

/-- fcvt.d.s, convert single to double (45_d_double.md R366). -/
def execFcvtDS (rd rs1 : RegIdx) (rm : BitVec 3) (s : State) : Result := s.fpResize (.fcvtDS rd rs1 rm) .S .D rm rd rs1

/-- feq.d, equal comparison, double (45_d_double.md R367). -/
def execFeqD (rd rs1 rs2 : RegIdx) (s : State) : Result := s.fpTest (.feqD rd rs1 rs2) .D rd rs1 rs2 .eq

/-- flt.d, less than comparison, double (45_d_double.md R368). -/
def execFltD (rd rs1 rs2 : RegIdx) (s : State) : Result := s.fpTest (.fltD rd rs1 rs2) .D rd rs1 rs2 .lt

/-- fle.d, less than or equal comparison, double (45_d_double.md R369). -/
def execFleD (rd rs1 rs2 : RegIdx) (s : State) : Result := s.fpTest (.fleD rd rs1 rs2) .D rd rs1 rs2 .le

/-- fclass.d, classify, double (45_d_double.md R370). -/
def execFclassD (rd rs1 : RegIdx) (s : State) : Result := s.fpClassify (.fclassD rd rs1) .D rd rs1

/-- fcvt.w.d, convert double to signed 32-bit integer (45_d_double.md R371). -/
def execFcvtWD (rd rs1 : RegIdx) (rm : BitVec 3) (s : State) : Result := s.fpToWord (.fcvtWD rd rs1 rm) .D rm rd rs1 true

/-- fcvt.wu.d, convert double to unsigned 32-bit integer (45_d_double.md R372). -/
def execFcvtWuD (rd rs1 : RegIdx) (rm : BitVec 3) (s : State) : Result := s.fpToWord (.fcvtWuD rd rs1 rm) .D rm rd rs1 false

/-- fcvt.d.w, convert signed 32-bit integer to double (45_d_double.md R373). -/
def execFcvtDW (rd rs1 : RegIdx) (rm : BitVec 3) (s : State) : Result :=
  s.fpFromInt (.fcvtDW rd rs1 rm) .D rm rd ((s.getX rs1).setWidth 32).toInt

/-- fcvt.d.wu, convert unsigned 32-bit integer to double (45_d_double.md R374). -/
def execFcvtDWu (rd rs1 : RegIdx) (rm : BitVec 3) (s : State) : Result :=
  s.fpFromInt (.fcvtDWu rd rs1 rm) .D rm rd ((s.getX rs1).setWidth 32).toNat

/-- fld, load double floating-point value (45_d_double.md R375). -/
def execFld (rd rs1 : RegIdx) (imm : BitVec 12) (s : State) : Result :=
  s.fpLoad (.fld rd rs1 imm) 4 .D rd (effAddr s.xlen (s.getX rs1) (sext s.xlen imm))

/-- fsd, store double floating-point value (45_d_double.md R376). -/
def execFsd (rs1 rs2 : RegIdx) (imm : BitVec 12) (s : State) : Result :=
  s.fpStore (.fsd rs1 rs2 imm) 4 .D rs2 (effAddr s.xlen (s.getX rs1) (sext s.xlen imm))

/-- fcvt.l.d on RV64, convert double to signed 64-bit integer (45_d_double.md R377). -/
def execFcvtLD (rd rs1 : RegIdx) (rm : BitVec 3) (s : State) : Result := s.fpToLong (.fcvtLD rd rs1 rm) .D rm rd rs1 true

/-- fcvt.lu.d on RV64, convert double to unsigned 64-bit integer (45_d_double.md R378). -/
def execFcvtLuD (rd rs1 : RegIdx) (rm : BitVec 3) (s : State) : Result := s.fpToLong (.fcvtLuD rd rs1 rm) .D rm rd rs1 false

/-- fmv.x.d on RV64, move double bit pattern to integer register (45_d_double.md R379). -/
def execFmvXD (rd rs1 : RegIdx) (s : State) : Result := s.fpToBits (.fmvXD rd rs1) .D rd rs1

/-- fcvt.d.l on RV64, convert signed 64-bit integer to double (45_d_double.md R380). -/
def execFcvtDL (rd rs1 : RegIdx) (rm : BitVec 3) (s : State) : Result :=
  s.fpFromInt (.fcvtDL rd rs1 rm) .D rm rd (s.getX rs1).toInt

/-- fcvt.d.lu on RV64, convert unsigned 64-bit integer to double (45_d_double.md R381). -/
def execFcvtDLu (rd rs1 : RegIdx) (rm : BitVec 3) (s : State) : Result :=
  s.fpFromInt (.fcvtDLu rd rs1 rm) .D rm rd (s.getX rs1).toNat

/-- fmv.d.x on RV64, move integer register bits to double register (45_d_double.md R382). -/
def execFmvDX (rd rs1 : RegIdx) (s : State) : Result := s.fpFromBits (.fmvDX rd rs1) .D rd rs1

end Sys2Proof.Machine
end

