-- ==== Sys2Proof/Machine/Half.lean ====
section
/-! DEFINITION. The Zfh extension (48_zfh_half_precision.md R501 to R536). -/

namespace Sys2Proof.Machine

/-- fmadd.h, fused multiply-add, half (48_zfh_half_precision.md R501). -/
def execFmaddH (rd rs1 rs2 rs3 : RegIdx) (rm : BitVec 3) (s : State) : Result :=
  s.fpFused (.fmaddH rd rs1 rs2 rs3 rm) .H rm rd rs1 rs2 rs3 false false

/-- fmsub.h, fused multiply-subtract, half (48_zfh_half_precision.md R502). -/
def execFmsubH (rd rs1 rs2 rs3 : RegIdx) (rm : BitVec 3) (s : State) : Result :=
  s.fpFused (.fmsubH rd rs1 rs2 rs3 rm) .H rm rd rs1 rs2 rs3 false true

/-- fnmsub.h, negated fused multiply-subtract, half (48_zfh_half_precision.md R503). -/
def execFnmsubH (rd rs1 rs2 rs3 : RegIdx) (rm : BitVec 3) (s : State) : Result :=
  s.fpFused (.fnmsubH rd rs1 rs2 rs3 rm) .H rm rd rs1 rs2 rs3 true false

/-- fnmadd.h, negated fused multiply-add, half (48_zfh_half_precision.md R504). -/
def execFnmaddH (rd rs1 rs2 rs3 : RegIdx) (rm : BitVec 3) (s : State) : Result :=
  s.fpFused (.fnmaddH rd rs1 rs2 rs3 rm) .H rm rd rs1 rs2 rs3 true true

/-- fadd.h, add, half (48_zfh_half_precision.md R505). -/
def execFaddH (rd rs1 rs2 : RegIdx) (rm : BitVec 3) (s : State) : Result :=
  s.fpArith (.faddH rd rs1 rs2 rm) .H rm rd rs1 rs2 fpAdd

/-- fsub.h, subtract, half (48_zfh_half_precision.md R506). -/
def execFsubH (rd rs1 rs2 : RegIdx) (rm : BitVec 3) (s : State) : Result :=
  s.fpArith (.fsubH rd rs1 rs2 rm) .H rm rd rs1 rs2 fpSub

/-- fmul.h, multiply, half (48_zfh_half_precision.md R507). -/
def execFmulH (rd rs1 rs2 : RegIdx) (rm : BitVec 3) (s : State) : Result :=
  s.fpArith (.fmulH rd rs1 rs2 rm) .H rm rd rs1 rs2 fpMul

/-- fdiv.h, divide, half (48_zfh_half_precision.md R508). -/
def execFdivH (rd rs1 rs2 : RegIdx) (rm : BitVec 3) (s : State) : Result :=
  s.fpArith (.fdivH rd rs1 rs2 rm) .H rm rd rs1 rs2 fpDiv

/-- fsqrt.h, square root, half (48_zfh_half_precision.md R509). -/
def execFsqrtH (rd rs1 : RegIdx) (rm : BitVec 3) (s : State) : Result := s.fpRoot (.fsqrtH rd rs1 rm) .H rm rd rs1

/-- fsgnj.h, sign injection, half (48_zfh_half_precision.md R510). -/
def execFsgnjH (rd rs1 rs2 : RegIdx) (s : State) : Result := s.fpSign (.fsgnjH rd rs1 rs2) .H rd rs1 rs2 (fun _ b => b)

/-- fsgnjn.h, sign injection, negated, half (48_zfh_half_precision.md R511). -/
def execFsgnjnH (rd rs1 rs2 : RegIdx) (s : State) : Result := s.fpSign (.fsgnjnH rd rs1 rs2) .H rd rs1 rs2 (fun _ b => !b)

/-- fsgnjx.h, sign injection, exclusive-or, half (48_zfh_half_precision.md R512). -/
def execFsgnjxH (rd rs1 rs2 : RegIdx) (s : State) : Result := s.fpSign (.fsgnjxH rd rs1 rs2) .H rd rs1 rs2 (fun a b => a != b)

/-- fmin.h, minimum, half (48_zfh_half_precision.md R513). -/
def execFminH (rd rs1 rs2 : RegIdx) (s : State) : Result := s.fpSelect (.fminH rd rs1 rs2) .H rd rs1 rs2 fpMin

/-- fmax.h, maximum, half (48_zfh_half_precision.md R514). -/
def execFmaxH (rd rs1 rs2 : RegIdx) (s : State) : Result := s.fpSelect (.fmaxH rd rs1 rs2) .H rd rs1 rs2 fpMax

/-- fcvt.s.h, convert half to single (48_zfh_half_precision.md R515). -/
def execFcvtSH (rd rs1 : RegIdx) (rm : BitVec 3) (s : State) : Result := s.fpResize (.fcvtSH rd rs1 rm) .H .S rm rd rs1

/-- fcvt.h.s, convert single to half (48_zfh_half_precision.md R516). -/
def execFcvtHS (rd rs1 : RegIdx) (rm : BitVec 3) (s : State) : Result := s.fpResize (.fcvtHS rd rs1 rm) .S .H rm rd rs1

/-- fcvt.d.h, convert half to double (48_zfh_half_precision.md R517). -/
def execFcvtDH (rd rs1 : RegIdx) (rm : BitVec 3) (s : State) : Result := s.fpResize (.fcvtDH rd rs1 rm) .H .D rm rd rs1

/-- fcvt.h.d, convert double to half (48_zfh_half_precision.md R518). -/
def execFcvtHD (rd rs1 : RegIdx) (rm : BitVec 3) (s : State) : Result := s.fpResize (.fcvtHD rd rs1 rm) .D .H rm rd rs1

/-- fcvt.q.h, convert half to quad (48_zfh_half_precision.md R519). Recorded and never admitted: always illegal-instruction. -/
def execFcvtQH (rd rs1 : RegIdx) (rm : BitVec 3) (s : State) : Result := s.stop (illegal (.fcvtQH rd rs1 rm))

/-- fcvt.h.q, convert quad to half (48_zfh_half_precision.md R520). Recorded and never admitted: always illegal-instruction. -/
def execFcvtHQ (rd rs1 : RegIdx) (rm : BitVec 3) (s : State) : Result := s.stop (illegal (.fcvtHQ rd rs1 rm))

/-- feq.h, equal comparison, half (48_zfh_half_precision.md R521). -/
def execFeqH (rd rs1 rs2 : RegIdx) (s : State) : Result := s.fpTest (.feqH rd rs1 rs2) .H rd rs1 rs2 .eq

/-- flt.h, less than comparison, half (48_zfh_half_precision.md R522). -/
def execFltH (rd rs1 rs2 : RegIdx) (s : State) : Result := s.fpTest (.fltH rd rs1 rs2) .H rd rs1 rs2 .lt

/-- fle.h, less than or equal comparison, half (48_zfh_half_precision.md R523). -/
def execFleH (rd rs1 rs2 : RegIdx) (s : State) : Result := s.fpTest (.fleH rd rs1 rs2) .H rd rs1 rs2 .le

/-- fclass.h, classify, half (48_zfh_half_precision.md R524). -/
def execFclassH (rd rs1 : RegIdx) (s : State) : Result := s.fpClassify (.fclassH rd rs1) .H rd rs1

/-- fcvt.w.h, convert half to signed 32-bit integer (48_zfh_half_precision.md R525). -/
def execFcvtWH (rd rs1 : RegIdx) (rm : BitVec 3) (s : State) : Result := s.fpToWord (.fcvtWH rd rs1 rm) .H rm rd rs1 true

/-- fcvt.wu.h, convert half to unsigned 32-bit integer (48_zfh_half_precision.md R526). -/
def execFcvtWuH (rd rs1 : RegIdx) (rm : BitVec 3) (s : State) : Result := s.fpToWord (.fcvtWuH rd rs1 rm) .H rm rd rs1 false

/-- fmv.x.h, move half bit pattern to integer register (48_zfh_half_precision.md R527). -/
def execFmvXH (rd rs1 : RegIdx) (s : State) : Result := s.fpToBits (.fmvXH rd rs1) .H rd rs1

/-- fcvt.h.w, convert signed 32-bit integer to half (48_zfh_half_precision.md R528). -/
def execFcvtHW (rd rs1 : RegIdx) (rm : BitVec 3) (s : State) : Result :=
  s.fpFromInt (.fcvtHW rd rs1 rm) .H rm rd ((s.getX rs1).setWidth 32).toInt

/-- fcvt.h.wu, convert unsigned 32-bit integer to half (48_zfh_half_precision.md R529). -/
def execFcvtHWu (rd rs1 : RegIdx) (rm : BitVec 3) (s : State) : Result :=
  s.fpFromInt (.fcvtHWu rd rs1 rm) .H rm rd ((s.getX rs1).setWidth 32).toNat

/-- fmv.h.x, move integer register bits to half register (48_zfh_half_precision.md R530). -/
def execFmvHX (rd rs1 : RegIdx) (s : State) : Result := s.fpFromBits (.fmvHX rd rs1) .H rd rs1

/-- flh, load half floating-point value (48_zfh_half_precision.md R531). -/
def execFlh (rd rs1 : RegIdx) (imm : BitVec 12) (s : State) : Result :=
  s.fpLoad (.flh rd rs1 imm) 4 .H rd (effAddr s.xlen (s.getX rs1) (sext s.xlen imm))

/-- fsh, store half floating-point value (48_zfh_half_precision.md R532). -/
def execFsh (rs1 rs2 : RegIdx) (imm : BitVec 12) (s : State) : Result :=
  s.fpStore (.fsh rs1 rs2 imm) 4 .H rs2 (effAddr s.xlen (s.getX rs1) (sext s.xlen imm))

/-- fcvt.l.h on RV64, convert half to signed 64-bit integer (48_zfh_half_precision.md R533). -/
def execFcvtLH (rd rs1 : RegIdx) (rm : BitVec 3) (s : State) : Result := s.fpToLong (.fcvtLH rd rs1 rm) .H rm rd rs1 true

/-- fcvt.lu.h on RV64, convert half to unsigned 64-bit integer (48_zfh_half_precision.md R534). -/
def execFcvtLuH (rd rs1 : RegIdx) (rm : BitVec 3) (s : State) : Result := s.fpToLong (.fcvtLuH rd rs1 rm) .H rm rd rs1 false

/-- fcvt.h.l on RV64, convert signed 64-bit integer to half (48_zfh_half_precision.md R535). -/
def execFcvtHL (rd rs1 : RegIdx) (rm : BitVec 3) (s : State) : Result :=
  s.fpFromInt (.fcvtHL rd rs1 rm) .H rm rd (s.getX rs1).toInt

/-- fcvt.h.lu on RV64, convert unsigned 64-bit integer to half (48_zfh_half_precision.md R536). -/
def execFcvtHLu (rd rs1 : RegIdx) (rm : BitVec 3) (s : State) : Result :=
  s.fpFromInt (.fcvtHLu rd rs1 rm) .H rm rd (s.getX rs1).toNat

end Sys2Proof.Machine
end

