-- ==== Sys2Proof/Machine/Memory.lean ====
section
/-! DEFINITION. The loads and stores of the base ISA (41_base_memory_control_rv64i.md R190 to R197, R215 to R217). -/

namespace Sys2Proof.Machine

/-- lb, load byte (41_base_memory_control_rv64i.md R190). -/
def execLb (rd rs1 : RegIdx) (imm : BitVec 12) (s : State) : Result :=
  s.loadX 4 rd (effAddr s.xlen (s.getX rs1) (sext s.xlen imm)) 1 (fun v => sext s.xlen (v.setWidth 8))

/-- lh, load halfword (41_base_memory_control_rv64i.md R191). -/
def execLh (rd rs1 : RegIdx) (imm : BitVec 12) (s : State) : Result :=
  s.loadX 4 rd (effAddr s.xlen (s.getX rs1) (sext s.xlen imm)) 2 (fun v => sext s.xlen (v.setWidth 16))

/-- lw, load word (41_base_memory_control_rv64i.md R192). -/
def execLw (rd rs1 : RegIdx) (imm : BitVec 12) (s : State) : Result :=
  s.loadX 4 rd (effAddr s.xlen (s.getX rs1) (sext s.xlen imm)) 4 (fun v => sext s.xlen (v.setWidth 32))

/-- lbu, load byte unsigned (41_base_memory_control_rv64i.md R193). -/
def execLbu (rd rs1 : RegIdx) (imm : BitVec 12) (s : State) : Result :=
  s.loadX 4 rd (effAddr s.xlen (s.getX rs1) (sext s.xlen imm)) 1 id

/-- lhu, load halfword unsigned (41_base_memory_control_rv64i.md R194). -/
def execLhu (rd rs1 : RegIdx) (imm : BitVec 12) (s : State) : Result :=
  s.loadX 4 rd (effAddr s.xlen (s.getX rs1) (sext s.xlen imm)) 2 id

/-- sb, store byte (41_base_memory_control_rv64i.md R195). -/
def execSb (rs1 rs2 : RegIdx) (imm : BitVec 12) (s : State) : Result :=
  s.storeX 4 (effAddr s.xlen (s.getX rs1) (sext s.xlen imm)) 1 (s.getX rs2)

/-- sh, store halfword (41_base_memory_control_rv64i.md R196). -/
def execSh (rs1 rs2 : RegIdx) (imm : BitVec 12) (s : State) : Result :=
  s.storeX 4 (effAddr s.xlen (s.getX rs1) (sext s.xlen imm)) 2 (s.getX rs2)

/-- sw, store word (41_base_memory_control_rv64i.md R197). -/
def execSw (rs1 rs2 : RegIdx) (imm : BitVec 12) (s : State) : Result :=
  s.storeX 4 (effAddr s.xlen (s.getX rs1) (sext s.xlen imm)) 4 (s.getX rs2)

/-- lwu on RV64, load word unsigned (41_base_memory_control_rv64i.md R215). -/
def execLwu (rd rs1 : RegIdx) (imm : BitVec 12) (s : State) : Result :=
  s.loadX 4 rd (effAddr s.xlen (s.getX rs1) (sext s.xlen imm)) 4 id

/-- ld on RV64, load doubleword (41_base_memory_control_rv64i.md R216). -/
def execLd (rd rs1 : RegIdx) (imm : BitVec 12) (s : State) : Result :=
  s.loadX 4 rd (effAddr s.xlen (s.getX rs1) (sext s.xlen imm)) 8 id

/-- sd on RV64, store doubleword (41_base_memory_control_rv64i.md R217). -/
def execSd (rs1 rs2 : RegIdx) (imm : BitVec 12) (s : State) : Result :=
  s.storeX 4 (effAddr s.xlen (s.getX rs1) (sext s.xlen imm)) 8 (s.getX rs2)

end Sys2Proof.Machine
end

