-- ==== Sys2Proof/Machine/MulDiv.lean ====
section
/-! DEFINITION. The M extension (42_m_multiply_divide.md R231 to R243). -/

namespace Sys2Proof.Machine

/-- mul, multiply (42_m_multiply_divide.md R231). -/
def execMul (rd rs1 rs2 : RegIdx) (s : State) : Result := s.alu2 4 rd mulOp (s.getX rs1) (s.getX rs2)

/-- mulh, multiply high signed-signed (42_m_multiply_divide.md R232). -/
def execMulh (rd rs1 rs2 : RegIdx) (s : State) : Result := s.alu2 4 rd mulhOp (s.getX rs1) (s.getX rs2)

/-- mulhsu, multiply high signed-unsigned (42_m_multiply_divide.md R233). -/
def execMulhsu (rd rs1 rs2 : RegIdx) (s : State) : Result := s.alu2 4 rd mulhsuOp (s.getX rs1) (s.getX rs2)

/-- mulhu, multiply high unsigned-unsigned (42_m_multiply_divide.md R234). -/
def execMulhu (rd rs1 rs2 : RegIdx) (s : State) : Result := s.alu2 4 rd mulhuOp (s.getX rs1) (s.getX rs2)

/-- div, divide signed (42_m_multiply_divide.md R235). -/
def execDiv (rd rs1 rs2 : RegIdx) (s : State) : Result := s.alu2 4 rd divOp (s.getX rs1) (s.getX rs2)

/-- divu, divide unsigned (42_m_multiply_divide.md R236). -/
def execDivu (rd rs1 rs2 : RegIdx) (s : State) : Result := s.alu2 4 rd divuOp (s.getX rs1) (s.getX rs2)

/-- rem, remainder signed (42_m_multiply_divide.md R237). -/
def execRem (rd rs1 rs2 : RegIdx) (s : State) : Result := s.alu2 4 rd remOp (s.getX rs1) (s.getX rs2)

/-- remu, remainder unsigned (42_m_multiply_divide.md R238). -/
def execRemu (rd rs1 rs2 : RegIdx) (s : State) : Result := s.alu2 4 rd remuOp (s.getX rs1) (s.getX rs2)

/-- mulw on RV64, multiply word (42_m_multiply_divide.md R239). -/
def execMulw (rd rs1 rs2 : RegIdx) (s : State) : Result := s.aluWord 4 rd (mulOp 32) (s.getX rs1) (s.getX rs2)

/-- divw on RV64, divide word signed (42_m_multiply_divide.md R240). -/
def execDivw (rd rs1 rs2 : RegIdx) (s : State) : Result := s.aluWord 4 rd (divOp 32) (s.getX rs1) (s.getX rs2)

/-- divuw on RV64, divide word unsigned (42_m_multiply_divide.md R241). -/
def execDivuw (rd rs1 rs2 : RegIdx) (s : State) : Result := s.aluWord 4 rd (divuOp 32) (s.getX rs1) (s.getX rs2)

/-- remw on RV64, remainder word signed (42_m_multiply_divide.md R242). -/
def execRemw (rd rs1 rs2 : RegIdx) (s : State) : Result := s.aluWord 4 rd (remOp 32) (s.getX rs1) (s.getX rs2)

/-- remuw on RV64, remainder word unsigned (42_m_multiply_divide.md R243). -/
def execRemuw (rd rs1 rs2 : RegIdx) (s : State) : Result := s.aluWord 4 rd (remuOp 32) (s.getX rs1) (s.getX rs2)

end Sys2Proof.Machine
end

