-- ==== Sys2Proof/Machine/Single.lean ====
section
/-! DEFINITION. The F extension (44_f_single.md R312 to R341). -/

namespace Sys2Proof.Machine

/-- fmadd.s, fused multiply-add, single (44_f_single.md R312). -/
def execFmaddS (rd rs1 rs2 rs3 : RegIdx) (rm : BitVec 3) (s : State) : Result :=
  s.fpFused (.fmaddS rd rs1 rs2 rs3 rm) .S rm rd rs1 rs2 rs3 false false

/-- fmsub.s, fused multiply-subtract, single (44_f_single.md R313). -/
def execFmsubS (rd rs1 rs2 rs3 : RegIdx) (rm : BitVec 3) (s : State) : Result :=
  s.fpFused (.fmsubS rd rs1 rs2 rs3 rm) .S rm rd rs1 rs2 rs3 false true

/-- fnmsub.s, negated fused multiply-subtract, single (44_f_single.md R314). -/
def execFnmsubS (rd rs1 rs2 rs3 : RegIdx) (rm : BitVec 3) (s : State) : Result :=
  s.fpFused (.fnmsubS rd rs1 rs2 rs3 rm) .S rm rd rs1 rs2 rs3 true false

/-- fnmadd.s, negated fused multiply-add, single (44_f_single.md R315). -/
def execFnmaddS (rd rs1 rs2 rs3 : RegIdx) (rm : BitVec 3) (s : State) : Result :=
  s.fpFused (.fnmaddS rd rs1 rs2 rs3 rm) .S rm rd rs1 rs2 rs3 true true

/-- fadd.s, add, single (44_f_single.md R316). -/
def execFaddS (rd rs1 rs2 : RegIdx) (rm : BitVec 3) (s : State) : Result :=
  s.fpArith (.faddS rd rs1 rs2 rm) .S rm rd rs1 rs2 fpAdd

/-- fsub.s, subtract, single (44_f_single.md R317). -/
def execFsubS (rd rs1 rs2 : RegIdx) (rm : BitVec 3) (s : State) : Result :=
  s.fpArith (.fsubS rd rs1 rs2 rm) .S rm rd rs1 rs2 fpSub

/-- fmul.s, multiply, single (44_f_single.md R318). -/
def execFmulS (rd rs1 rs2 : RegIdx) (rm : BitVec 3) (s : State) : Result :=
  s.fpArith (.fmulS rd rs1 rs2 rm) .S rm rd rs1 rs2 fpMul

/-- fdiv.s, divide, single (44_f_single.md R319). -/
def execFdivS (rd rs1 rs2 : RegIdx) (rm : BitVec 3) (s : State) : Result :=
  s.fpArith (.fdivS rd rs1 rs2 rm) .S rm rd rs1 rs2 fpDiv

/-- fsqrt.s, square root, single (44_f_single.md R320). -/
def execFsqrtS (rd rs1 : RegIdx) (rm : BitVec 3) (s : State) : Result := s.fpRoot (.fsqrtS rd rs1 rm) .S rm rd rs1

/-- fsgnj.s, sign injection, single (44_f_single.md R321). -/
def execFsgnjS (rd rs1 rs2 : RegIdx) (s : State) : Result := s.fpSign (.fsgnjS rd rs1 rs2) .S rd rs1 rs2 (fun _ b => b)

/-- fsgnjn.s, sign injection, negated, single (44_f_single.md R322). -/
def execFsgnjnS (rd rs1 rs2 : RegIdx) (s : State) : Result := s.fpSign (.fsgnjnS rd rs1 rs2) .S rd rs1 rs2 (fun _ b => !b)

/-- fsgnjx.s, sign injection, exclusive-or, single (44_f_single.md R323). -/
def execFsgnjxS (rd rs1 rs2 : RegIdx) (s : State) : Result := s.fpSign (.fsgnjxS rd rs1 rs2) .S rd rs1 rs2 (fun a b => a != b)

/-- fmin.s, minimum, single (44_f_single.md R324). -/
def execFminS (rd rs1 rs2 : RegIdx) (s : State) : Result := s.fpSelect (.fminS rd rs1 rs2) .S rd rs1 rs2 fpMin

/-- fmax.s, maximum, single (44_f_single.md R325). -/
def execFmaxS (rd rs1 rs2 : RegIdx) (s : State) : Result := s.fpSelect (.fmaxS rd rs1 rs2) .S rd rs1 rs2 fpMax

/-- fcvt.w.s, convert single to signed 32-bit integer (44_f_single.md R326). -/
def execFcvtWS (rd rs1 : RegIdx) (rm : BitVec 3) (s : State) : Result := s.fpToWord (.fcvtWS rd rs1 rm) .S rm rd rs1 true

/-- fcvt.wu.s, convert single to unsigned 32-bit integer (44_f_single.md R327). -/
def execFcvtWuS (rd rs1 : RegIdx) (rm : BitVec 3) (s : State) : Result := s.fpToWord (.fcvtWuS rd rs1 rm) .S rm rd rs1 false

/-- fmv.x.w, move single bit pattern to integer register (44_f_single.md R328). -/
def execFmvXW (rd rs1 : RegIdx) (s : State) : Result := s.fpToBits (.fmvXW rd rs1) .S rd rs1

/-- feq.s, equal comparison, single (44_f_single.md R329). -/
def execFeqS (rd rs1 rs2 : RegIdx) (s : State) : Result := s.fpTest (.feqS rd rs1 rs2) .S rd rs1 rs2 .eq

/-- flt.s, less than comparison, single (44_f_single.md R330). -/
def execFltS (rd rs1 rs2 : RegIdx) (s : State) : Result := s.fpTest (.fltS rd rs1 rs2) .S rd rs1 rs2 .lt

/-- fle.s, less than or equal comparison, single (44_f_single.md R331). -/
def execFleS (rd rs1 rs2 : RegIdx) (s : State) : Result := s.fpTest (.fleS rd rs1 rs2) .S rd rs1 rs2 .le

/-- fclass.s, classify, single (44_f_single.md R332). -/
def execFclassS (rd rs1 : RegIdx) (s : State) : Result := s.fpClassify (.fclassS rd rs1) .S rd rs1

/-- fcvt.s.w, convert signed 32-bit integer to single (44_f_single.md R333). -/
def execFcvtSW (rd rs1 : RegIdx) (rm : BitVec 3) (s : State) : Result :=
  s.fpFromInt (.fcvtSW rd rs1 rm) .S rm rd ((s.getX rs1).setWidth 32).toInt

/-- fcvt.s.wu, convert unsigned 32-bit integer to single (44_f_single.md R334). -/
def execFcvtSWu (rd rs1 : RegIdx) (rm : BitVec 3) (s : State) : Result :=
  s.fpFromInt (.fcvtSWu rd rs1 rm) .S rm rd ((s.getX rs1).setWidth 32).toNat

/-- fmv.w.x, move integer register bits to single register (44_f_single.md R335). -/
def execFmvWX (rd rs1 : RegIdx) (s : State) : Result := s.fpFromBits (.fmvWX rd rs1) .S rd rs1

/-- flw, load single floating-point value (44_f_single.md R336). -/
def execFlw (rd rs1 : RegIdx) (imm : BitVec 12) (s : State) : Result :=
  s.fpLoad (.flw rd rs1 imm) 4 .S rd (effAddr s.xlen (s.getX rs1) (sext s.xlen imm))

/-- fsw, store single floating-point value (44_f_single.md R337). -/
def execFsw (rs1 rs2 : RegIdx) (imm : BitVec 12) (s : State) : Result :=
  s.fpStore (.fsw rs1 rs2 imm) 4 .S rs2 (effAddr s.xlen (s.getX rs1) (sext s.xlen imm))

/-- fcvt.l.s on RV64, convert single to signed 64-bit integer (44_f_single.md R338). -/
def execFcvtLS (rd rs1 : RegIdx) (rm : BitVec 3) (s : State) : Result := s.fpToLong (.fcvtLS rd rs1 rm) .S rm rd rs1 true

/-- fcvt.lu.s on RV64, convert single to unsigned 64-bit integer (44_f_single.md R339). -/
def execFcvtLuS (rd rs1 : RegIdx) (rm : BitVec 3) (s : State) : Result := s.fpToLong (.fcvtLuS rd rs1 rm) .S rm rd rs1 false

/-- fcvt.s.l on RV64, convert signed 64-bit integer to single (44_f_single.md R340). -/
def execFcvtSL (rd rs1 : RegIdx) (rm : BitVec 3) (s : State) : Result :=
  s.fpFromInt (.fcvtSL rd rs1 rm) .S rm rd (s.getX rs1).toInt

/-- fcvt.s.lu on RV64, convert unsigned 64-bit integer to single (44_f_single.md R341). -/
def execFcvtSLu (rd rs1 : RegIdx) (rm : BitVec 3) (s : State) : Result :=
  s.fpFromInt (.fcvtSLu rd rs1 rm) .S rm rd (s.getX rs1).toNat

end Sys2Proof.Machine
end

