-- ==== Sys2Proof/Machine/Csr.lean ====
section
/-! DEFINITION. The control and status registers (10_state.md R31 to R38) and what the six CSR instructions share
(60_exceptions.md R622). -/

namespace Sys2Proof.Machine

/-- The number of a mode: U 00, S 01, M 11 (10_state.md R39). -/
def Priv.code : Priv → BitVec 2
  | .U => 0b00#2
  | .S => 0b01#2
  | .M => 0b11#2

/-- The CSR an address names, of those the spec describes (10_state.md R33). -/
def csrOf (addr : CsrAddr) : Option Csr :=
  match addr.toNat with
  | 0x001 => some .fflags
  | 0x002 => some .frm
  | 0x003 => some .fcsr
  | 0x017 => some .jvt
  | 0x100 => some .sstatus
  | 0x105 => some .stvec
  | 0x140 => some .sscratch
  | 0x141 => some .sepc
  | 0x142 => some .scause
  | 0x143 => some .stval
  | 0x300 => some .mstatus
  | 0x305 => some .mtvec
  | 0x340 => some .mscratch
  | 0x341 => some .mepc
  | 0x342 => some .mcause
  | 0x343 => some .mtval
  | _ => none

/-- Whether a CSR is one of the three views of fcsr (10_state.md R31). -/
def Csr.isFp : Csr → Bool
  | .fflags => true
  | .frm => true
  | .fcsr => true
  | _ => false

/-- Whether the unit that brings a CSR is in EXT (10_state.md R33). -/
def Csr.present (ext : Ext) : Csr → Bool
  | .fflags => ext.f
  | .frm => ext.f
  | .fcsr => ext.f
  | .jvt => ext.zcmt
  | _ => true

/-- One bit at a position. -/
def bitAt (n : Nat) (b : Bool) : Word := if b then 1#64 <<< n else 0#64

/-- The FS field as software sees it: 0 where F is not in EXT (10_state.md R34). -/
def visibleFs (cfg : Config) (m : Mstatus) : BitVec 2 := if cfg.ext.f then m.fs else 0#2

/-- The fields of mstatus that sstatus shows, at their places: SIE, SPIE, SPP, FS, SD (10_state.md R34). -/
def sstatusFields (cfg : Config) (m : Mstatus) : Word :=
  bitAt 1 m.sie ||| bitAt 5 m.spie ||| bitAt 8 m.spp ||| ((visibleFs cfg m).setWidth 64 <<< 13)
    ||| bitAt (cfg.xlen.bits - 1) (visibleFs cfg m == 3#2)

/-- All modelled fields of mstatus, at their places (10_state.md R34). -/
def mstatusFields (cfg : Config) (m : Mstatus) : Word :=
  sstatusFields cfg m ||| bitAt 3 m.mie ||| bitAt 7 m.mpie ||| ((Priv.code m.mpp).setWidth 64 <<< 11)
    ||| bitAt 17 m.mprv ||| bitAt 20 m.tvm ||| bitAt 21 m.tw ||| bitAt 22 m.tsr

/-- The bits of mstatus that the spec models: 1, 3, 5, 7, 8, 14:11, 17, 22:20 and XLEN-1 (10_state.md R34). -/
def mstatusMask (xlen : Xlen) : Word := 0x7279aa#64 ||| bitAt (xlen.bits - 1) true

/-- What a read of mstatus or sstatus gives in the bits the spec does not model: a free value (10_state.md R34,
93_implementation_defined.md U20, log 5). -/
def State.unmodelledBits (s : State) : Word := cut s.cfg.xlen (s.free &&& ~~~mstatusMask s.cfg.xlen)

/-- The bits of a CSR that the spec models, the others 0 (10_state.md R31 to R38). -/
def State.csrValue (s : State) : Csr → Word
  | .fflags => s.fflags.setWidth 64
  | .frm => s.frm.setWidth 64
  | .fcsr => (s.frm ++ s.fflags).setWidth 64
  | .jvt => s.jvt
  | .sstatus => sstatusFields s.cfg s.mstatus
  | .stvec => s.stvec
  | .sscratch => s.sscratch
  | .sepc => epcValue s.cfg s.sepc
  | .scause => s.scause
  | .stval => s.stval
  | .mstatus => mstatusFields s.cfg s.mstatus
  | .mtvec => s.mtvec
  | .mscratch => s.mscratch
  | .mepc => epcValue s.cfg s.mepc
  | .mcause => s.mcause
  | .mtval => s.mtval

/-- `CSRRead`: the value, and the hart after the free value a read of mstatus or sstatus draws (10_state.md R32, R34). -/
def State.csrRead (s : State) (c : Csr) : Word × State :=
  match c with
  | .sstatus => (s.csrValue c ||| s.unmodelledBits, s.drawn)
  | .mstatus => (s.csrValue c ||| s.unmodelledBits, s.drawn)
  | .fflags | .frm | .fcsr | .jvt | .stvec | .sscratch | .sepc | .scause | .stval | .mtvec | .mscratch | .mepc | .mcause
  | .mtval => (s.csrValue c, s)

/-- The FS field after a write: it exists with F only (10_state.md R34). -/
def writtenFs (cfg : Config) (m : Mstatus) (v : Word) : BitVec 2 := if cfg.ext.f then v.extractLsb' 13 2 else m.fs

/-- The fields a write of sstatus stores: SIE, SPIE, SPP, FS (10_state.md R34). -/
def writeSstatus (cfg : Config) (m : Mstatus) (v : Word) : Mstatus :=
  { m with sie := v.getLsbD 1, spie := v.getLsbD 5, spp := v.getLsbD 8, fs := writtenFs cfg m v }

/-- The fields a write of mstatus stores, given the mode MPP takes (10_state.md R34). -/
def writeMstatus (cfg : Config) (m : Mstatus) (v : Word) (mpp : Priv) : Mstatus :=
  { writeSstatus cfg m v with
    mie := v.getLsbD 3
    mpie := v.getLsbD 7
    mpp := mpp
    mprv := v.getLsbD 17
    tvm := v.getLsbD 20
    tw := v.getLsbD 21
    tsr := v.getLsbD 22 }

/-- The mode a value written to MPP names; 10 names none (10_state.md R34). -/
def privOf (code : BitVec 2) : Option Priv :=
  match code.toNat with
  | 0 => some .U
  | 1 => some .S
  | 3 => some .M
  | _ => none

/-- The mode MPP holds after a write of 10: an unspecified one of the three (10_state.md R34, log 5). -/
def freePriv (w : Word) : Priv :=
  match w.toNat % 3 with
  | 0 => .U
  | 1 => .S
  | _ => .M

/-- What mtvec or stvec holds after a write: BASE as written, and MODE as written when it is 0 or 1, else an unspecified one of
the two, from the free value (10_state.md R37, log 5). -/
def tvecValue (xlen : Xlen) (v free : Word) : Word :=
  cut xlen ((v &&& ~~~3#64) ||| bitAt 0 (if v.getLsbD 1 then free.getLsbD 0 else v.getLsbD 0))

/-- The hart after the free value a write of mtvec or stvec may have drawn. -/
def State.drawnIf (s : State) (b : Bool) : State := if b then s.drawn else s

/-- `CSRWrite`: the writable fields only (10_state.md R31 to R38). -/
def State.csrWrite (s : State) (v : Word) : Csr → State
  | .fflags => { s.dirtyFs with fflags := v.extractLsb' 0 5 }
  | .frm => { s.dirtyFs with frm := v.extractLsb' 0 3 }
  | .fcsr => { s.dirtyFs with fflags := v.extractLsb' 0 5, frm := v.extractLsb' 5 3 }
  | .jvt => { s with jvt := cut s.cfg.xlen v }
  | .sstatus => { s with mstatus := writeSstatus s.cfg s.mstatus v }
  | .stvec => { s.drawnIf (v.getLsbD 1) with stvec := tvecValue s.cfg.xlen v s.free }
  | .sscratch => { s with sscratch := cut s.cfg.xlen v }
  | .sepc => { s with sepc := epcValue s.cfg v }
  | .scause => { s with scause := cut s.cfg.xlen v }
  | .stval => { s with stval := cut s.cfg.xlen v }
  | .mstatus =>
    match privOf (v.extractLsb' 11 2) with
    | some p => { s with mstatus := writeMstatus s.cfg s.mstatus v p }
    | none => { s.drawn with mstatus := writeMstatus s.cfg s.mstatus v (freePriv s.free) }
  | .mtvec => { s.drawnIf (v.getLsbD 1) with mtvec := tvecValue s.cfg.xlen v s.free }
  | .mscratch => { s with mscratch := cut s.cfg.xlen v }
  | .mepc => { s with mepc := epcValue s.cfg v }
  | .mcause => { s with mcause := cut s.cfg.xlen v }
  | .mtval => { s with mtval := cut s.cfg.xlen v }

/-- The checks of a CSR instruction, in the order of 60_exceptions.md R622: privilege, read-only space, existence, the
floating-point unit. An address the spec does not describe is refused. -/
def State.csrCheck (s : State) (i : Instr) (addr : CsrAddr) (writes : Bool) : Except Stop Csr :=
  if (Priv.code s.priv).toNat < (addr.extractLsb' 8 2).toNat then .error (illegal i)
  else if addr.extractLsb' 10 2 = 0b11#2 && writes then .error (illegal i)
  else
    match csrOf addr with
    | none => .error (.refuse (.unmodelledCsr addr))
    | some c =>
      if !c.present s.cfg.ext then .error (illegal i)
      else if c.isFp && s.fpOff then .error (illegal i)
      else .ok c

/-- A CSR instruction: the checks, the read when it reads, the write when it writes, the value read into rd
(40_base_compute_system.md R173 to R178). The value written is made bit by bit from the CSR's; the bits of it that the spec does
not model are stored nowhere, so it is made from the modelled bits. -/
def State.csrAccess (s : State) (i : Instr) (rd : RegIdx) (addr : CsrAddr) (reads writes : Bool) (newValue : Word → Word) :
    Result :=
  match s.csrCheck i addr writes with
  | .error e => s.stop e
  | .ok c =>
    let (t, s₁) := if reads then s.csrRead c else (0#64, s)
    let s₂ := if writes then s₁.csrWrite (newValue (s.csrValue c)) c else s₁
    .next ((if reads then s₂.setX rd t else s₂).advance 4)

end Sys2Proof.Machine
end

