-- ==== Sys2Proof/Machine/System.lean ====
section
/-! DEFINITION. The fences, the CSR instructions, ecall, ebreak, the trap returns and wfi (40_base_compute_system.md R171 to R184). -/

namespace Sys2Proof.Machine

/-- fence, memory and I/O ordering fence (40_base_compute_system.md R171). No other agent can see the order (20_memory.md R75 to
R77): pc advances and that is all. -/
def execFence (_rd _rs1 : RegIdx) (_fm _pred _succ : BitVec 4) (s : State) : Result := .next (s.advance 4)

/-- fence.i, instruction-fetch fence (40_base_compute_system.md R172). The fetch-coherence set is emptied (20_memory.md R78). -/
def execFenceI (_rd _rs1 : RegIdx) (_imm : BitVec 12) (s : State) : Result := .next { s.advance 4 with stale := [] }

/-- csrrw, atomic read/write CSR (40_base_compute_system.md R173). -/
def execCsrrw (rd rs1 : RegIdx) (csr : CsrAddr) (s : State) : Result :=
  s.csrAccess (.csrrw rd rs1 csr) rd csr (rd != 0#5) true (fun _ => s.getX rs1)

/-- csrrs, atomic read and set bits in CSR (40_base_compute_system.md R174). -/
def execCsrrs (rd rs1 : RegIdx) (csr : CsrAddr) (s : State) : Result :=
  s.csrAccess (.csrrs rd rs1 csr) rd csr true (rs1 != 0#5) (fun t => t ||| s.getX rs1)

/-- csrrc, atomic read and clear bits in CSR (40_base_compute_system.md R175). -/
def execCsrrc (rd rs1 : RegIdx) (csr : CsrAddr) (s : State) : Result :=
  s.csrAccess (.csrrc rd rs1 csr) rd csr true (rs1 != 0#5) (fun t => t &&& ~~~s.getX rs1)

/-- csrrwi, atomic read/write CSR, immediate (40_base_compute_system.md R176). -/
def execCsrrwi (rd : RegIdx) (csr : CsrAddr) (uimm : BitVec 5) (s : State) : Result :=
  s.csrAccess (.csrrwi rd csr uimm) rd csr (rd != 0#5) true (fun _ => zext uimm)

/-- csrrsi, atomic read and set bits in CSR, immediate (40_base_compute_system.md R177). -/
def execCsrrsi (rd : RegIdx) (csr : CsrAddr) (uimm : BitVec 5) (s : State) : Result :=
  s.csrAccess (.csrrsi rd csr uimm) rd csr true (uimm != 0#5) (fun t => t ||| zext uimm)

/-- csrrci, atomic read and clear bits in CSR, immediate (40_base_compute_system.md R178). -/
def execCsrrci (rd : RegIdx) (csr : CsrAddr) (uimm : BitVec 5) (s : State) : Result :=
  s.csrAccess (.csrrci rd csr uimm) rd csr true (uimm != 0#5) (fun t => t &&& ~~~zext uimm)

/-- ecall, environment call (40_base_compute_system.md R179). -/
def execEcall (s : State) : Result :=
  s.takeTrap
    (match s.priv with
     | .U => .ecallU
     | .S => .ecallS
     | .M => .ecallM)
    0#64

/-- ebreak, environment breakpoint (40_base_compute_system.md R180). -/
def execEbreak (s : State) : Result := s.takeTrap .breakpoint s.pc

/-- sret, return from supervisor-mode trap (40_base_compute_system.md R181). -/
def execSret (s : State) : Result :=
  if s.priv == .U || (s.priv == .S && s.mstatus.tsr) then s.stop (illegal .sret)
  else .next s.returnFromS

/-- mret, return from machine-mode trap (40_base_compute_system.md R182). -/
def execMret (s : State) : Result :=
  if s.priv != .M then s.stop (illegal .mret)
  else .next s.returnFromM

/-- wfi, wait for interrupt (40_base_compute_system.md R183). Whether it retires or the hart stays at it for this step is a free
value, drawn anew at each step, so that both are admitted, and staying for ever (60_exceptions.md R627, log 11). -/
def execWfi (s : State) : Result :=
  if (s.priv != .M && s.mstatus.tw) || (s.priv == .U && !s.cfg.wfiInUMode) then s.stop (illegal .wfi)
  else .next (if s.free.getLsbD 0 then s.drawn.advance 4 else s.drawn)

/-- sfence.vma, supervisor address-translation fence (40_base_compute_system.md R184). There is no translation to order
(20_memory.md R80). -/
def execSfenceVma (rs1 rs2 : RegIdx) (s : State) : Result :=
  if s.priv == .U || (s.priv == .S && s.mstatus.tvm) then s.stop (illegal (.sfenceVma rs1 rs2))
  else .next (s.advance 4)

end Sys2Proof.Machine
end

