-- ==== Sys2Proof/Machine/Fetch.lean ====
section
/-! DEFINITION. What the step needs around exec: the end-of-run predicate, and the placing of one instruction for the host. -/

namespace Sys2Proof.Machine

/-- The launcher's predicates on the state (60_exceptions.md R628 (b), log 8): free, nothing can be proved about any of them. -/
opaque launcherHalt : Nat → State → Bool

/-- Whether a value has the bits of another under a mask. -/
def maskedEq (w mask value : Word) : Bool := w &&& mask == value &&& mask

/-- Whether a form of HALT holds of a state (60_exceptions.md R628 (b), log 8). -/
def State.haltOn (s : State) : Halt → Bool
  | .never => false
  | .pcEquals addr => s.pc == addr
  | .modeIs code => Priv.code s.priv == code
  | .xMatches r mask value => maskedEq (s.getX r) mask value
  | .fMatches r mask value => maskedEq (s.getF r) mask value
  | .csrMatches addr mask value =>
    match csrOf addr with
    | none => false
    | some c => maskedEq (s.csrValue c) mask value
  | .wordEquals addr value =>
    (accessAddrs s.cfg.xlen (BitVec.ofNat 64 addr) 4).map (Memory.get? s.mem) == (wordBytes (value.setWidth 64) 4).map some
  | .hasValue addr n => (accessAddrs s.cfg.xlen (BitVec.ofNat 64 addr) n).all (fun a => (Memory.get? s.mem a).isSome)
  | .stored addr n => (accessAddrs s.cfg.xlen (BitVec.ofNat 64 addr) n).any (fun a => s.stale.contains a)
  | .not h => !s.haltOn h
  | .both h k => s.haltOn h && s.haltOn k
  | .either h k => s.haltOn h || s.haltOn k
  | .predicate n => launcherHalt n s

/-- Whether HALT holds (60_exceptions.md R628 (b)). -/
def State.haltHolds (s : State) : Bool := s.haltOn s.cfg.halt

/-- Bytes stored from outside the hart, such as a program image: in memory and not in the fetch-coherence set
(20_memory.md R79). -/
def State.placeBytes (s : State) : List (Nat × Byte) → State
  | [] => s
  | (a, b) :: rest => State.placeBytes { s with mem := Memory.set s.mem a b, stale := s.stale.filter (fun c => c != a) } rest

/-- The parameters of another machine of the family: XLEN and EXT as given, and a MEM_MAP over the address space when that
changes (log 9). -/
def Config.withMachine (c : Config) (xlen : Xlen) (ext : Ext) : Config :=
  { c with xlen := xlen, ext := ext, memMap := if xlen = c.xlen then c.memMap else Config.wholeSpace xlen }

/-- The parameters under which an instruction's bytes decode: the hart's own where they do, else the first machine of
`tableMachines` where they do, else the hart's own (log 9). -/
noncomputable def configFor (c : Config) (bytes : List Byte) : Config :=
  match decodeBytes c.xlen c.ext bytes with
  | .ok _ => c
  | .error _ =>
    match decodeFirst bytes tableMachines with
    | some (xlen, ext, _) => Config.withMachine c xlen ext
    | none => c

end Sys2Proof.Machine
end

