-- ==== Sys2Proof/Machine/Step.lean ====
section
/-! DEFINITION. One step of the hart, and the placing of an instruction where the next step fetches. -/

namespace Sys2Proof.Machine

/-- One step (00_scope.md R12): the end-of-run predicate under trap delivery `machine` (60_exceptions.md R628), the fetch, the
decoding, the instruction's meaning. A word that is no instruction of the machine raises illegal-instruction (R603 (a)). -/
noncomputable def step (s : State) : Host.Outcome State Fault Refusal :=
  if s.cfg.trapDelivery == .machine && s.haltHolds then .fault (.halted s)
  else
    match s.fetch with
    | .error e => s.stop e
    | .ok code =>
      match decode s.cfg.xlen s.cfg.ext code with
      | none => s.takeTrap .illegalInstruction code.bits
      | some i => exec i s

/-- The hart with one instruction stored at pc, on the machine it belongs to (log 9). -/
noncomputable def State.withFetchWord (s : State) (nbits w : Nat) : State :=
  let bytes := tableBytes nbits w
  let cfg := configFor s.cfg bytes
  { s with cfg := cfg }.placeBytes ((accessAddrs cfg.xlen s.pc bytes.length).zip bytes)

end Sys2Proof.Machine
end

