-- ==== Sys2Proof/Safety.lean ====
section
/-! DEFINITION. The invariant of the hart, part by part, and what a safe run is. -/

namespace Sys2Proof.Machine

/-- A value of XLEN bits (log 2). -/
def fitsX (cfg : Config) (w : Word) : Prop := w.toNat < 2 ^ cfg.xlen.bits

/-- Memory is in canonical form and inside the address space (10_state.md R43, 20_memory.md R60). -/
def State.memInv (s : State) : Prop :=
  Memory.wf s.mem ∧ ∀ c ∈ s.mem, c.1 < 2 ^ s.cfg.xlen.bits

/-- The fetch-coherence set is strictly rising and holds only addresses whose byte has a value (10_state.md R42). -/
def State.staleInv (s : State) : Prop :=
  s.stale.Pairwise (fun a b => a < b) ∧ ∀ a ∈ s.stale, (Memory.get? s.mem a).isSome

/-- Every register and pc holds a value of its width, and x0's place holds 0 (10_state.md R20, R21, R25, R28, R32). -/
def State.widthInv (s : State) : Prop :=
  (∀ r : RegIdx, fitsX s.cfg (s.x[r.toNat]'r.isLt)) ∧ s.x[0] = 0#64
    ∧ (∀ r : RegIdx, (s.f[r.toNat]'r.isLt).toNat < 2 ^ s.cfg.ext.flen)
    ∧ fitsX s.cfg s.pc ∧ fitsX s.cfg s.mtvec ∧ fitsX s.cfg s.mscratch ∧ fitsX s.cfg s.mepc ∧ fitsX s.cfg s.mcause
    ∧ fitsX s.cfg s.mtval ∧ fitsX s.cfg s.stvec ∧ fitsX s.cfg s.sscratch ∧ fitsX s.cfg s.sepc ∧ fitsX s.cfg s.scause
    ∧ fitsX s.cfg s.stval ∧ fitsX s.cfg s.jvt

/-- pc, mepc and sepc are instruction addresses: multiples of IALIGN/8 (20_memory.md R66, 10_state.md R35). -/
def State.alignInv (s : State) : Prop :=
  s.pc.toNat % s.cfg.ext.ialignBytes = 0 ∧ s.mepc.toNat % s.cfg.ext.ialignBytes = 0
    ∧ s.sepc.toNat % s.cfg.ext.ialignBytes = 0

/-- mtvec and stvec hold MODE 0 or 1 (10_state.md R37). -/
def State.vectorInv (s : State) : Prop := s.mtvec.getLsbD 1 = false ∧ s.stvec.getLsbD 1 = false

/-- A reservation is of 4 or 8 bytes, at an aligned address of the address space (10_state.md R40, 43_a_atomic.md R250). -/
def State.reservationInv (s : State) : Prop :=
  ∀ r ∈ s.reservation, (r.size = 4 ∨ r.size = 8) ∧ r.addr.toNat % r.size = 0 ∧ fitsX s.cfg r.addr

/-- The invariant that every step keeps. -/
def State.Inv (s : State) : Prop :=
  s.memInv ∧ s.staleInv ∧ s.widthInv ∧ s.alignInv ∧ s.vectorInv ∧ s.reservationInv

/-- k steps from a state, stopping at the first fault or refusal. -/
noncomputable def runFor : Nat → State → Result
  | 0, s => .next s
  | k + 1, s =>
    match step s with
    | .next t => runFor k t
    | .fault r => .fault r
    | .refused r => .refused r

/-- A run of k steps is safe when no step ends it: no trap to the environment, no HALT, no unspecified byte, no stale fetch, no
unmodelled CSR (60_exceptions.md R628). -/
def State.safeFor (s : State) (k : Nat) : Prop := ∃ t, runFor k s = .next t

end Sys2Proof.Machine
end

