-- ==== Sys2Proof/Certificates/Slice0/Obligations.lean ====
section
/-! DEFINITION. The statements for the provers, `Obligations.<Name>`, and the vocabulary they are written in: outcomes said field by
field, values said in the integers, memory said byte by byte. A statement takes its values from the numbered rules of spec/ and not
from the operations of Machine/, except for the address of a store and the numeric functions of Float.lean, which have statements
of their own. -/

namespace Sys2Proof.Machine

/-! Values. -/

/-- The unsigned reading of an integer register. -/
def uval (s : State) (r : RegIdx) : Nat := (s.getX r).toNat

/-- The signed reading of an n-bit number. -/
def signed (n a : Nat) : Int := Int.bmod a (2 ^ n)

/-- The XLEN-bit word that stands for an integer modulo 2^XLEN. -/
def wrap (s : State) (z : Int) : Word := BitVec.ofNat 64 (z % 2 ^ s.cfg.xlen.bits).toNat

/-- The number whose bits below n are given. -/
def ofBits (p : Nat → Bool) : Nat → Nat
  | 0 => 0
  | n + 1 => ofBits p n + (if p n then 2 ^ n else 0)

/-- The integer 1 or 0 of a truth value. -/
def truth (b : Bool) : Int := if b then 1 else 0

/-- The address of an immediate offset from a register, as the loads and stores compute it. -/
def immAddr (s : State) (rs1 : RegIdx) (imm : BitVec 12) : Word := effAddr s.xlen (s.getX rs1) (sext s.xlen imm)

/-- The address of an unsigned offset from a register, as the compressed loads and stores compute it. -/
def offAddr {n : Nat} (s : State) (rs1 : RegIdx) (offset : BitVec n) : Word :=
  effAddr s.xlen (s.getX rs1) (zext offset)

/-! Memory. -/

/-- The address of byte k of an access. -/
def byteAddr (s : State) (addr : Word) (k : Nat) : Nat := (addr.toNat + k) % 2 ^ s.cfg.xlen.bits

/-- Memory holds a w-byte number at an address, little-endian (20_memory.md R62). -/
abbrev Holds (s : State) (addr : Word) (w v : Nat) : Prop :=
  v < 256 ^ w ∧ ∀ k < w, Memory.get? s.mem (byteAddr s addr k) = some (BitVec.ofNat 8 (v / 256 ^ k))

/-- Every byte of an access lies in a region with the permission it needs (20_memory.md R69). -/
abbrev Mapped (s : State) (kind : AccessKind) (addr : Word) (w : Nat) : Prop :=
  ∀ k < w, ∃ r ∈ s.cfg.memMap, Region.allows r kind (byteAddr s addr k) = true

/-- An access that raises no address-misaligned exception (20_memory.md R64, R65). -/
abbrev AlignedOrEmulated (s : State) (addr : Word) (w : Nat) : Prop :=
  addr.toNat % w = 0 ∨ s.cfg.misaligned = .emulate

/-- Every byte of memory reads as before. -/
def SameMemory (s t : State) : Prop := ∀ a, Memory.get? t.mem a = Memory.get? s.mem a

/-- The w bytes at an address hold the low bytes of a value, every other byte reads as before, and exactly the stored
addresses have joined the fetch-coherence set (20_memory.md R61, R62; 10_state.md R42). -/
def Stored (s t : State) (addr : Word) (w : Nat) (v : Nat) : Prop :=
  (∀ k < w, Memory.get? t.mem (byteAddr s addr k) = some (BitVec.ofNat 8 (v / 256 ^ k)))
    ∧ (∀ a, (∀ k < w, a ≠ byteAddr s addr k) → Memory.get? t.mem a = Memory.get? s.mem a)
    ∧ (∀ a, a ∈ t.stale ↔ a ∈ s.stale ∨ ∃ k < w, a = byteAddr s addr k)

/-! Outcomes. -/

/-- The outcome writes one integer register and moves past an n-byte instruction; x0 stays zero; nothing else changes. -/
def WritesX (s : State) (r : Result) (n : Nat) (rd : RegIdx) (v : Word) : Prop :=
  ∃ t, r = .next t
    ∧ (∀ q, t.getX q = if q = rd ∧ rd ≠ 0#5 then v else s.getX q)
    ∧ t.pc = wrap s (s.pc.toNat + n)
    ∧ SameMemory s t
    ∧ t = { s with x := t.x, pc := t.pc }

/-- The outcome moves pc to a target and writes the address after the n-byte instruction to rd; nothing else changes. -/
def JumpsLinking (s : State) (r : Result) (n : Nat) (rd : RegIdx) (target : Word) : Prop :=
  ∃ t, r = .next t
    ∧ (∀ q, t.getX q = if q = rd ∧ rd ≠ 0#5 then wrap s (s.pc.toNat + n) else s.getX q)
    ∧ t.pc = target
    ∧ SameMemory s t
    ∧ t = { s with x := t.x, pc := t.pc }

/-- The outcome moves pc and changes nothing else. -/
def MovesPc (s : State) (r : Result) (target : Word) : Prop := r = .next { s with pc := target }

/-- The outcome stores the low w bytes of a value and moves past an n-byte instruction; nothing else changes. -/
def StoresBytes (s : State) (r : Result) (n : Nat) (addr : Word) (w : Nat) (v : Nat) : Prop :=
  ∃ t, r = .next t
    ∧ Stored s t addr w v
    ∧ t.pc = wrap s (s.pc.toNat + n)
    ∧ t = { s with mem := t.mem, stale := t.stale, pc := t.pc }

/-- mstatus after an instruction that wrote floating-point state: FS is Dirty under trap delivery `machine` (10_state.md R34).
-/
def dirtied (s : State) : Mstatus :=
  if s.cfg.trapDelivery = .machine then { s.mstatus with fs := 3#2 } else s.mstatus

/-- The outcome writes the FLEN bits of one floating-point register, ORs flags into fflags, makes FS Dirty and moves past an
n-byte instruction; nothing else changes. -/
def WritesF (s : State) (r : Result) (n : Nat) (rd : RegIdx) (v : Word) (flags : FpFlags) : Prop :=
  ∃ t, r = .next t
    ∧ (∀ q, t.getF q = if q = rd then v else s.getF q)
    ∧ t.fflags = s.fflags ||| flags
    ∧ t.mstatus = dirtied s
    ∧ t.pc = wrap s (s.pc.toNat + n)
    ∧ SameMemory s t
    ∧ t = { s with f := t.f, fflags := t.fflags, mstatus := t.mstatus, pc := t.pc }

/-- The outcome writes one integer register, ORs flags into fflags, makes FS Dirty and moves past a 4-byte instruction;
nothing else changes. -/
def WritesXAndFlags (s : State) (r : Result) (rd : RegIdx) (v : Word) (flags : FpFlags) : Prop :=
  ∃ t, r = .next t
    ∧ (∀ q, t.getX q = if q = rd ∧ rd ≠ 0#5 then v else s.getX q)
    ∧ t.fflags = s.fflags ||| flags
    ∧ t.mstatus = dirtied s
    ∧ t.pc = wrap s (s.pc.toNat + 4)
    ∧ SameMemory s t
    ∧ t = { s with x := t.x, fflags := t.fflags, mstatus := t.mstatus, pc := t.pc }

/-- The outcome of raising an exception. Under trap delivery `environment` the run ends with the cause, the pc and the trap
value, on the state as it is (60_exceptions.md R612, R613). Under `machine` the handler is entered (R614): pc to mepc, the
cause and the value to mcause and mtval, MIE to MPIE, the mode to MPP, MIE cleared, mode M, pc at BASE * 4; a reservation may be lost (20_memory.md R81);
nothing else changes. -/
def Traps (s : State) (r : Result) (cause : Exc) (tval : Word) : Prop :=
  match s.cfg.trapDelivery with
  | .environment => r = .fault (.trap cause s.pc tval s)
  | .machine =>
    ∃ t, r = .next t
      ∧ t.mepc = epcValue s.cfg s.pc
      ∧ t.mcause = cause.code
      ∧ t.mtval = cut s.cfg.xlen tval
      ∧ t.mstatus = { s.mstatus with mpie := s.mstatus.mie, mie := false, mpp := s.priv }
      ∧ t.priv = .M
      ∧ t.pc.toNat = s.mtvec.toNat % 2 ^ s.cfg.xlen.bits / 4 * 4
      ∧ (t.reservation = s.reservation ∨ t.reservation = none)
      ∧ SameMemory s t
      ∧ t = { s with
          mepc := t.mepc, mcause := t.mcause, mtval := t.mtval, mstatus := t.mstatus, priv := t.priv, pc := t.pc,
          reservation := t.reservation, draws := t.draws }

/-- HALT does not end the run here: it is looked at under trap delivery `machine` only (60_exceptions.md R628 (b)). -/
abbrev NotHalting (s : State) : Prop := s.cfg.trapDelivery = .machine → s.haltHolds = false

/-- The k-th byte of a w-byte access is the first with a property. -/
abbrev FirstByte (s : State) (addr : Word) (w : Nat) (p : Nat → Prop) (k : Nat) : Prop :=
  k < w ∧ p (byteAddr s addr k) ∧ ∀ j < k, ¬p (byteAddr s addr j)

/-- A byte this hart has stored to since its last fence.i (10_state.md R42). -/
abbrev Stale (s : State) (a : Nat) : Prop := a ∈ s.stale

/-- A byte nothing has given a value (10_state.md R45). -/
abbrev NoValue (s : State) (a : Nat) : Prop := Memory.get? s.mem a = none

/-- The floating-point unit is on: FS is not Off, or trap delivery is `environment`, where FS is not consulted (10_state.md
R34). -/
abbrev FpOn (s : State) : Prop := s.cfg.trapDelivery = .machine → s.mstatus.fs ≠ 0#2

/-! Floating-point values, read from the bits (44_f_single.md R300). -/

/-- The exponent field. -/
def expField (fmt : FloatFormat) (v : Word) : Nat := v.toNat / 2 ^ fmt.fracBits % 2 ^ fmt.expBits

/-- The fraction field. -/
def fracField (fmt : FloatFormat) (v : Word) : Nat := v.toNat % 2 ^ fmt.fracBits

/-- The sign bit. -/
def negative (fmt : FloatFormat) (v : Word) : Bool := v.toNat / 2 ^ (fmt.width - 1) % 2 == 1

/-- A NaN: exponent all ones, fraction not zero. -/
abbrev IsNan (fmt : FloatFormat) (v : Word) : Prop := expField fmt v = 2 ^ fmt.expBits - 1 ∧ fracField fmt v ≠ 0

/-- A signaling NaN: a NaN whose most significant fraction bit is 0. -/
abbrev IsSnan (fmt : FloatFormat) (v : Word) : Prop := IsNan fmt v ∧ fracField fmt v < 2 ^ (fmt.fracBits - 1)

/-- An infinity. -/
abbrev IsInf (fmt : FloatFormat) (v : Word) : Prop := expField fmt v = 2 ^ fmt.expBits - 1 ∧ fracField fmt v = 0

/-- A zero of either sign. -/
abbrev IsZero (fmt : FloatFormat) (v : Word) : Prop := expField fmt v = 0 ∧ fracField fmt v = 0

/-- A finite number: not a NaN, not an infinity. -/
abbrev IsFinite (fmt : FloatFormat) (v : Word) : Prop := expField fmt v ≠ 2 ^ fmt.expBits - 1

/-- The number a finite pattern stands for. -/
noncomputable def realOf (fmt : FloatFormat) (v : Word) : ℝ :=
  (if negative fmt v then -1 else 1)
    * (if expField fmt v = 0 then (fracField fmt v : ℝ) * 2 ^ (1 - (fmt.bias : ℤ) - fmt.fracBits)
       else ((2 ^ fmt.fracBits + fracField fmt v : ℕ) : ℝ) * 2 ^ ((expField fmt v : ℤ) - fmt.bias - fmt.fracBits))

/-- The least normal number. -/
noncomputable def leastNormal (fmt : FloatFormat) : ℝ := 2 ^ (1 - (fmt.bias : ℤ))

/-- The least power of two above every finite number. -/
noncomputable def finiteBound (fmt : FloatFormat) : ℝ := 2 ^ ((fmt.bias : ℤ) + 1)

/-- The distance between the largest finite number and `finiteBound`. -/
noncomputable def topSpacing (fmt : FloatFormat) : ℝ := 2 ^ ((fmt.bias : ℤ) - fmt.fracBits)

/-- Whether rounding a nonzero x in a direction moves its magnitude toward zero, away from it, or to nearest. -/
inductive Toward where
  | zero
  | away
  | nearest
  deriving DecidableEq, Repr

/-- Where a rounding direction takes the magnitude of a number of the given sign (44_f_single.md R302). -/
def towardOf (rm : RoundingMode) (neg : Bool) : Toward :=
  match rm with
  | .rne => .nearest
  | .rmm => .nearest
  | .rtz => .zero
  | .rdn => if neg then .away else .zero
  | .rup => if neg then .zero else .away

/-- The rounded magnitude of x exceeds the largest finite number (44_f_single.md R304 (d)). -/
def Overflows (fmt : FloatFormat) (rm : RoundingMode) (neg : Bool) (x : ℝ) : Prop :=
  match towardOf rm neg with
  | .nearest => finiteBound fmt - topSpacing fmt / 2 ≤ |x|
  | .zero => finiteBound fmt ≤ |x|
  | .away => finiteBound fmt - topSpacing fmt < |x|

/-- The magnitude of x, rounded with the precision of the format and no bound on the exponent, is below the least normal
number: tininess after rounding (44_f_single.md R304 (e)). The spacing of that precision just below the least normal number is
leastNormal / 2^(fracBits + 1). -/
def Tiny (fmt : FloatFormat) (rm : RoundingMode) (neg : Bool) (x : ℝ) : Prop :=
  match towardOf rm neg with
  | .nearest => |x| < leastNormal fmt - leastNormal fmt / 2 ^ (fmt.fracBits + 2)
  | .zero => |x| < leastNormal fmt
  | .away => |x| ≤ leastNormal fmt - leastNormal fmt / 2 ^ (fmt.fracBits + 1)

/-- A finite y is the rounding of x in a direction, among the finite numbers of the format (44_f_single.md R302). -/
def RoundsTo (fmt : FloatFormat) (rm : RoundingMode) (x : ℝ) (y : Word) : Prop :=
  match rm with
  | .rdn => realOf fmt y ≤ x ∧ ∀ z, IsFinite fmt z → realOf fmt z ≤ x → realOf fmt z ≤ realOf fmt y
  | .rup => x ≤ realOf fmt y ∧ ∀ z, IsFinite fmt z → x ≤ realOf fmt z → realOf fmt y ≤ realOf fmt z
  | .rtz => |realOf fmt y| ≤ |x| ∧ ∀ z, IsFinite fmt z → |realOf fmt z| ≤ |x| → |realOf fmt z| ≤ |realOf fmt y|
  | .rne => ∀ z, IsFinite fmt z → |realOf fmt y - x| ≤ |realOf fmt z - x|
      ∧ (|realOf fmt y - x| = |realOf fmt z - x| → realOf fmt y ≠ realOf fmt z → y.toNat % 2 = 0)
  | .rmm => ∀ z, IsFinite fmt z → |realOf fmt y - x| ≤ |realOf fmt z - x|
      ∧ (|realOf fmt y - x| = |realOf fmt z - x| → |realOf fmt z| ≤ |realOf fmt y|)

/-- A result (bits, flags) is the number x, not zero, rounded once to the format, with the flags of 44_f_single.md R304 (d) to
(g): NV and DZ clear; on overflow OF and NX and the infinity or the largest finite number of the direction; otherwise the
rounded number with the sign of x, NX exactly when it differs from x, UF exactly when it differs and is tiny. -/
def RoundedOnce (fmt : FloatFormat) (rm : RoundingMode) (x : ℝ) (r : Word × FpFlags) : Prop :=
  let neg := decide (x < 0)
  r.1.toNat < 2 ^ fmt.width ∧ negative fmt r.1 = neg
    ∧ (Overflows fmt rm neg x →
        r.2 = flagOF ||| flagNX
          ∧ (if towardOf rm neg = .zero then
              expField fmt r.1 = 2 ^ fmt.expBits - 2 ∧ fracField fmt r.1 = 2 ^ fmt.fracBits - 1
             else IsInf fmt r.1))
    ∧ (¬Overflows fmt rm neg x →
        IsFinite fmt r.1 ∧ RoundsTo fmt rm x r.1
          ∧ (realOf fmt r.1 = x → r.2 = 0#5)
          ∧ (realOf fmt r.1 ≠ x → Tiny fmt rm neg x → r.2 = flagUF ||| flagNX)
          ∧ (realOf fmt r.1 ≠ x → ¬Tiny fmt rm neg x → r.2 = flagNX))

/-- A result is the infinity of a sign, no flag. -/
abbrev GivesInf (fmt : FloatFormat) (neg : Bool) (r : Word × FpFlags) : Prop :=
  r.1.toNat < 2 ^ fmt.width ∧ IsInf fmt r.1 ∧ negative fmt r.1 = neg ∧ r.2 = 0#5

/-- A result is the zero of a sign, no flag. -/
abbrev GivesZero (fmt : FloatFormat) (neg : Bool) (r : Word × FpFlags) : Prop :=
  r.1.toNat < 2 ^ fmt.width ∧ IsZero fmt r.1 ∧ negative fmt r.1 = neg ∧ r.2 = 0#5

/-- The sign of a product or a quotient (44_f_single.md R304 (c), (h)). -/
def productSign (fmt : FloatFormat) (a b : Word) : Bool := negative fmt a != negative fmt b

/-- One operand is an infinity and the other is neither a NaN nor a zero: a valid infinite product. -/
abbrev InfiniteProduct (fmt : FloatFormat) (a b : Word) : Prop :=
  (IsInf fmt a ∧ ¬IsNan fmt b ∧ ¬IsZero fmt b) ∨ (IsInf fmt b ∧ ¬IsNan fmt a ∧ ¬IsZero fmt a)

/-- x rounded to an integer (44_f_single.md R302, R307). -/
noncomputable def roundToInt (rm : RoundingMode) (x : ℝ) : ℤ :=
  match rm with
  | .rdn => ⌊x⌋
  | .rup => ⌈x⌉
  | .rtz => if x < 0 then ⌈x⌉ else ⌊x⌋
  | .rne => if x - ⌊x⌋ < 1 / 2 then ⌊x⌋ else if 1 / 2 < x - ⌊x⌋ then ⌈x⌉ else if ⌊x⌋ % 2 = 0 then ⌊x⌋ else ⌈x⌉
  | .rmm => if x < 0 then ⌈x - 1 / 2⌉ else ⌊x + 1 / 2⌋

/-- The place of a pattern that is no NaN among the extended reals. -/
noncomputable def extOf (fmt : FloatFormat) (v : Word) : EReal :=
  if expField fmt v = 2 ^ fmt.expBits - 1 then (if negative fmt v then ⊥ else ⊤) else ((realOf fmt v : ℝ) : EReal)

end Sys2Proof.Machine

section
open Sys2Proof Sys2Proof.Machine

/-! The machine: fetch, decode, step. -/

/-- 00_scope.md R12: when HALT does not hold and the bytes at pc decode to an instruction, the step is that instruction's
meaning on the same state; the step adds nothing around it (each meaning moves pc itself). -/
def Obligations.StepRunsTheDecodedInstruction : Prop :=
  ∀ (s : State) (code : Code) (i : Instr),
    NotHalting s →
    s.fetch = .ok code →
    decode s.cfg.xlen s.cfg.ext code = some i →
    step s = exec i s

/-- 60_exceptions.md R603 (a), R628 (b), R602: a word that is no instruction of the machine raises illegal-instruction with
the word as trap value; HALT ends the run before the fetch, on the state as it is, under trap delivery `machine` only; a first
parcel that may not be fetched raises instruction-access-fault with pc as trap value. -/
def Obligations.StepStopsBeforeAnInstruction : Prop :=
  ∀ s : State,
    (∀ code : Code, NotHalting s → s.fetch = .ok code →
      decode s.cfg.xlen s.cfg.ext code = none → Traps s (step s) .illegalInstruction code.bits)
    ∧ (s.cfg.trapDelivery = .machine → s.haltHolds = true → step s = .fault (.halted s))
    ∧ (NotHalting s → ¬Mapped s .execute s.pc 2 →
        Traps s (step s) .instrAccessFault s.pc)

/-- 20_memory.md R63, R69, R79; 30_encoding.md R101; 60_exceptions.md R602: what fetching at pc gives, for parcels lo at pc
and hi at pc + 2 read as little-endian numbers. A parcel whose two low bits are not 11 is the instruction; else the parcel
above it is its upper half; a second parcel that may not be fetched raises instruction-access-fault with its own address, and
one with a byte in the fetch-coherence set is a stale fetch, which carries its first such byte (that address is the model's
choice, log 18). -/
def Obligations.FetchReadsOneOrTwoParcels : Prop :=
  ∀ (s : State) (lo : Nat),
    let next := effAddr s.xlen s.pc 2#64
    Mapped s .execute s.pc 2 → (∀ k < 2, byteAddr s s.pc k ∉ s.stale) → Holds s s.pc 2 lo →
    (lo % 4 ≠ 3 → s.fetch = .ok (.half (BitVec.ofNat 16 lo)))
    ∧ (lo % 4 = 3 →
        (∀ hi : Nat, Mapped s .execute next 2 → (∀ k < 2, byteAddr s next k ∉ s.stale) → Holds s next 2 hi →
          s.fetch = .ok (.full (BitVec.ofNat 32 (hi * 65536 + lo))))
        ∧ (¬Mapped s .execute next 2 → s.fetch = .error (.exc .instrAccessFault next))
        ∧ (∀ k, Mapped s .execute next 2 → FirstByte s next 2 (Stale s) k →
            s.fetch = .error (.fault (.staleFetch (byteAddr s next k)))))

/-- 20_memory.md R78, R79, 10_state.md R42: a step that fetches a parcel with a byte stored to since the last fence.i, and a table
jump whose entry has one, is the model's fault `staleFetch` at the first such byte: for the first parcel, for the second parcel
of a first one that calls for it, and for the entry. So is the step after an sw that stored where pc then stands. fence.i
empties the fetch-coherence set and moves past itself; nothing else changes. That the fault carries the address of the first stale
byte, and not that of the parcel or entry, is the model's choice (log 18). -/
def Obligations.StoredBytesAreStaleUntilFenceI : Prop :=
  (∀ (s : State) (k : Nat), NotHalting s → Mapped s .execute s.pc 2 → FirstByte s s.pc 2 (Stale s) k →
    step s = .fault (.staleFetch (byteAddr s s.pc k)))
  ∧ (∀ (s : State) (lo k : Nat),
      let next := effAddr s.xlen s.pc 2#64
      NotHalting s → Mapped s .execute s.pc 2 → (∀ j < 2, byteAddr s s.pc j ∉ s.stale) → Holds s s.pc 2 lo → lo % 4 = 3 →
      Mapped s .execute next 2 → FirstByte s next 2 (Stale s) k →
      step s = .fault (.staleFetch (byteAddr s next k)))
  ∧ (∀ (s : State) (index : BitVec 8) (k : Nat),
      let w := s.cfg.xlen.bytes
      let entry := wrap s (s.jvt.toNat / 64 * 64 + index.toNat * w)
      s.jvt.toNat % 64 = 0 → Mapped s .execute entry w → FirstByte s entry w (Stale s) k →
      exec (.cmJt index) s = .fault (.staleFetch (byteAddr s entry k))
        ∧ exec (.cmJalt index) s = .fault (.staleFetch (byteAddr s entry k)))
  ∧ (∀ (rs1 rs2 : RegIdx) (imm : BitVec 12) (s t : State),
      let addr := immAddr s rs1 imm
      AlignedOrEmulated s addr 4 → Mapped s .store addr 4 → exec (.sw rs1 rs2 imm) s = .next t →
      NotHalting t → t.pc = addr → Mapped t .execute addr 2 →
      step t = .fault (.staleFetch (byteAddr s addr 0)))
  ∧ (∀ (rd rs1 : RegIdx) (imm : BitVec 12) (s : State),
      ∃ t, exec (.fenceI rd rs1 imm) s = .next t ∧ t.stale = [] ∧ t.pc = wrap s (s.pc.toNat + 4) ∧ SameMemory s t
        ∧ t = { s with pc := t.pc, stale := [] })

/-- Words written out bit by bit from the encodings of the spec, one or more for each family (30_encoding.md R102 to R121 and
the encoding line of each instruction's rule), and the instruction each stands for. -/
def Obligations.SampleWordsDecode : Prop :=
  decode .rv32 Ext.all (.full 0b000000000001_00010_000_00101_0010011#32) = some (.addi 5#5 2#5 1#12)
  ∧ decode .rv64 Ext.all (.full 0b111111111111_00010_010_00101_0000011#32) = some (.lw 5#5 2#5 0xfff#12)
  ∧ decode .rv64 Ext.all (.full 0b1111111_00101_00010_011_11100_0100011#32) = some (.sd 2#5 5#5 0xffc#12)
  ∧ decode .rv64 Ext.all (.full 0b1_111111_00111_00110_001_1110_1_1100011#32) = some (.bne 6#5 7#5 0xffe#12)
  ∧ decode .rv64 Ext.all (.full 0b0_0000000010_0_00000000_00001_1101111#32) = some (.jal 1#5 2#20)
  ∧ decode .rv64 Ext.all (.full 0b0011000_00010_00000_000_00000_1110011#32) = some .mret
  ∧ decode .rv32 Ext.all (.full 0b0000001_00111_00110_100_00101_0110011#32) = some (.div 5#5 6#5 7#5)
  ∧ decode .rv64 Ext.all (.full 0b00011_1_0_00111_00110_010_00101_0101111#32) = some (.scW 5#5 6#5 7#5 1#1 0#1)
  ∧ decode .rv64 Ext.all (.full 0b01000_00_00111_00110_000_00101_1000011#32) = some (.fmaddS 5#5 6#5 7#5 8#5 0#3)
  ∧ decode .rv64 Ext.all (.full 0b0000001_00111_00110_111_00101_1010011#32) = some (.faddD 5#5 6#5 7#5 7#3)
  ∧ decode .rv64 Ext.all (.full 0b0010110_00111_00110_001_00101_1010011#32) = some (.fmaxH 5#5 6#5 7#5)
  ∧ decode .rv64 Ext.all (.full 0b0100000_00111_00110_111_00101_0110011#32) = some (.andn 5#5 6#5 7#5)
  ∧ decode .rv64 Ext.all (.half 0b000_1_00101_11111_01#16) = some (.cAddi 5#5 0b111111#6)
  ∧ decode .rv64 Ext.all (.half 0b100_0_01_001_00011_01#16) = some (.cSrai 1#3 3#6)
  ∧ decode .rv64 Ext.all (.half 0b100_011_010_0_1_101_00#16) = some (.cSh 2#3 5#3 1#1)
  ∧ decode .rv64 Ext.all (.half 0b101_11000_0101_10_10#16) = some (.cmPush 5#4 2#2)
  ∧ decode .rv64 Ext.all (.half 0b101_000_00100000_10#16) = some (.cmJalt 32#8)

/-! Encoding. -/

/-- 30_encoding.md R102 to R122: the word of every well-formed instruction of a machine decodes to that instruction, with
every operand at every value. -/
def Obligations.DecodeInvertsEncode : Prop :=
  ∀ (i : Instr) (xlen : Xlen) (ext : Ext), i.wf xlen ext = true → decode xlen ext i.encode = some i

/-- 30_encoding.md R122, R123: what the decoder answers is a well-formed instruction of the machine, and writing it back gives
the bits it was read from. So no two words mean one instruction and no bit of a word is dropped. -/
def Obligations.EncodeInvertsDecode : Prop :=
  ∀ (xlen : Xlen) (ext : Ext) (code : Code) (i : Instr),
    decode xlen ext code = some i → i.wf xlen ext = true ∧ i.encode = code

/-! Reset and what every step keeps. -/

/-- 10_state.md R44, 70_reset_and_hazards.md R650: what reset leaves, of what the spec gives a value. -/
def Obligations.ResetLeavesTheSpecifiedState : Prop :=
  ∀ cfg : Config,
    let s := State.resetWith cfg
    s.cfg = cfg ∧ s.pc = cfg.resetPc ∧ s.priv = .M ∧ s.mstatus.mie = false ∧ s.mstatus.mprv = false
      ∧ s.reservation = none ∧ s.stale = [] ∧ (∀ a, Memory.get? s.mem a = none) ∧ s.getX 0#5 = 0#64

/-- 10_state.md R43, R44, 70_reset_and_hazards.md R651: after reset with valid parameters every part of the invariant holds.
The values of the registers the spec gives none are the model's choice (log 3), which any other would serve as well. -/
def Obligations.ResetMeetsTheInvariant : Prop :=
  (∀ cfg : Config, cfg.valid = true → (State.resetWith cfg).Inv) ∧ Config.default.valid = true

/-- 10_state.md R42, R43, 20_memory.md R60: every step from a state whose memory is in canonical form inside the address
space, with a strictly rising fetch-coherence set of addresses that hold a value, gives such a state. -/
def Obligations.StepKeepsMemoryCanonical : Prop :=
  ∀ s t : State, s.memInv → s.staleInv → step s = .next t → t.memInv ∧ t.staleInv

/-- 10_state.md R20, R21, R25, R28, R32: every step keeps each register and pc within its width, and x0's place zero. -/
def Obligations.StepKeepsRegisterWidths : Prop :=
  ∀ s t : State, s.widthInv → step s = .next t → t.widthInv

/-- 20_memory.md R66, 10_state.md R26, R35: every step keeps pc, mepc and sepc multiples of IALIGN/8. -/
def Obligations.StepKeepsInstructionAddressesAligned : Prop :=
  ∀ s t : State, s.alignInv → step s = .next t → t.alignInv

/-- 00_scope.md R5 to R7, 10_state.md R37, R40, 43_a_atomic.md R250: every step leaves the parameters of the machine, keeps
MODE of mtvec and stvec at 0 or 1, and keeps a held reservation a naturally aligned one of 4 or 8 bytes inside the address
space. -/
def Obligations.StepKeepsParametersVectorsAndReservation : Prop :=
  (∀ s t : State, step s = .next t → t.cfg = s.cfg)
  ∧ (∀ s t : State, s.vectorInv → step s = .next t → t.vectorInv)
  ∧ (∀ s t : State, s.reservationInv → step s = .next t → t.reservationInv)

/-! Privilege. -/

/-- 60_exceptions.md R621: "The mode changes only by rule R614 (to M), by mret (to MPP) and by sret (to S or U)". A step that
changes the mode has taken an exception (the interrupted pc and mode saved, pc at the handler, a cause in mcause), or was mret
in M, or was sret in S or M. -/
def Obligations.ModeChangesOnlyByTrapOrReturn : Prop :=
  ∀ s t : State, step s = .next t → t.priv ≠ s.priv →
    (t.priv = .M ∧ t.mepc = epcValue s.cfg s.pc ∧ t.mstatus.mpp = s.priv ∧ t.pc = s.handler ∧ ∃ c : Exc, t.mcause = c.code)
    ∨ (∃ code, s.fetch = .ok code ∧ decode s.cfg.xlen s.cfg.ext code = some .mret ∧ s.priv = .M ∧ t.priv = s.mstatus.mpp)
    ∨ (∃ code, s.fetch = .ok code ∧ decode s.cfg.xlen s.cfg.ext code = some .sret ∧ s.priv ≠ .U
        ∧ t.priv = if s.mstatus.spp then .S else .U)

/-- 60_exceptions.md R603, R614, R621, R622: a step in U mode changes no supervisor or machine register but by taking an
exception, and then only those that taking one writes; mstatus.FS, which floating-point instructions set, is the one field
left out. -/
def Obligations.UserModeCannotTouchHigherModes : Prop :=
  ∀ s t : State, s.priv = .U → step s = .next t →
    t.mtvec = s.mtvec ∧ t.mscratch = s.mscratch ∧ t.stvec = s.stvec ∧ t.sscratch = s.sscratch ∧ t.sepc = s.sepc
    ∧ t.scause = s.scause ∧ t.stval = s.stval
    ∧ t.mstatus.sie = s.mstatus.sie ∧ t.mstatus.spie = s.mstatus.spie ∧ t.mstatus.spp = s.mstatus.spp
    ∧ t.mstatus.mprv = s.mstatus.mprv ∧ t.mstatus.tvm = s.mstatus.tvm ∧ t.mstatus.tw = s.mstatus.tw
    ∧ t.mstatus.tsr = s.mstatus.tsr
    ∧ ((t.priv = .M ∧ t.pc = s.handler ∧ t.mepc = epcValue s.cfg s.pc ∧ t.mstatus.mpp = .U
          ∧ t.mstatus.mpie = s.mstatus.mie ∧ t.mstatus.mie = false)
        ∨ (t.priv = .U ∧ t.mepc = s.mepc ∧ t.mcause = s.mcause ∧ t.mtval = s.mtval ∧ t.mstatus.mie = s.mstatus.mie
          ∧ t.mstatus.mpie = s.mstatus.mpie ∧ t.mstatus.mpp = s.mstatus.mpp))

/-! Integer computation. -/

/-- 40_base_compute_system.md R150 to R160: the instructions with an immediate operand, each with its result as an integer
modulo 2^XLEN: n is XLEN, a the unsigned reading of rs1, i the sign-extended immediate, k a shift amount below XLEN. Nothing
but rd and pc changes. -/
def Obligations.ImmediateInstructionsComplete : Prop :=
  (∀ (rd : RegIdx) (imm : BitVec 20) (s : State),
    WritesX s (exec (.lui rd imm) s) 4 rd (wrap s (imm.toInt * 4096))
    ∧ WritesX s (exec (.auipc rd imm) s) 4 rd (wrap s (s.pc.toNat + imm.toInt * 4096)))
  ∧ (∀ row ∈ ([
        (.addi, fun _ a i => a + i),
        (.slti, fun n a i => truth (signed n a < i)),
        (.sltiu, fun n a i => truth (a < i % 2 ^ n)),
        (.xori, fun n a i => (a ^^^ (i % 2 ^ n).toNat : Nat)),
        (.ori, fun n a i => (a ||| (i % 2 ^ n).toNat : Nat)),
        (.andi, fun n a i => (a &&& (i % 2 ^ n).toNat : Nat))] :
        List ((RegIdx → RegIdx → BitVec 12 → Instr) × (Nat → Nat → Int → Int))),
      ∀ (rd rs1 : RegIdx) (imm : BitVec 12) (s : State),
        WritesX s (exec (row.1 rd rs1 imm) s) 4 rd (wrap s (row.2 s.cfg.xlen.bits (uval s rs1) imm.toInt)))
  ∧ (∀ row ∈ ([
        (.slli, fun _ a k => a * 2 ^ k),
        (.srli, fun _ a k => (a / 2 ^ k : Nat)),
        (.srai, fun n a k => signed n a / 2 ^ k)] :
        List ((RegIdx → RegIdx → BitVec 6 → Instr) × (Nat → Nat → Nat → Int))),
      ∀ (rd rs1 : RegIdx) (shamt : BitVec 6) (s : State), shamt.toNat < s.cfg.xlen.bits →
        WritesX s (exec (row.1 rd rs1 shamt) s) 4 rd (wrap s (row.2 s.cfg.xlen.bits (uval s rs1) shamt.toNat)))

/-- 40_base_compute_system.md R161 to R170: the register-register instructions of the base ISA, each with its result as an
integer modulo 2^XLEN: n is XLEN, a and b the unsigned readings of rs1 and rs2. Nothing but rd and pc changes. -/
def Obligations.RegisterInstructionsComplete : Prop :=
  ∀ row ∈ ([
      (.add, fun _ a b => a + b),
      (.sub, fun _ a b => (a : Int) - b),
      (.sll, fun n a b => a * 2 ^ (b % n)),
      (.slt, fun n a b => truth (signed n a < signed n b)),
      (.sltu, fun _ a b => truth (a < b)),
      (.xor, fun _ a b => (a ^^^ b : Nat)),
      (.srl, fun n a b => (a / 2 ^ (b % n) : Nat)),
      (.sra, fun n a b => signed n a / 2 ^ (b % n)),
      (.or, fun _ a b => (a ||| b : Nat)),
      (.and, fun _ a b => (a &&& b : Nat))] :
      List ((RegIdx → RegIdx → RegIdx → Instr) × (Nat → Nat → Nat → Int))),
    ∀ (rd rs1 rs2 : RegIdx) (s : State),
      WritesX s (exec (row.1 rd rs1 rs2) s) 4 rd (wrap s (row.2 s.cfg.xlen.bits (uval s rs1) (uval s rs2)))

/-- 41_base_memory_control_rv64i.md R206 to R214, 42_m_multiply_divide.md R239 to R243: the word instructions: a and b are the
low words of the operands, the 32-bit result is sign-extended. Nothing but rd and pc changes. -/
def Obligations.WordInstructionsComplete : Prop :=
  (∀ row ∈ ([
      (.addw, fun a b => a + b),
      (.subw, fun a b => (a : Int) - b),
      (.sllw, fun a b => a * 2 ^ (b % 32)),
      (.srlw, fun a b => (a / 2 ^ (b % 32) : Nat)),
      (.sraw, fun a b => signed 32 a / 2 ^ (b % 32)),
      (.mulw, fun a b => a * b),
      (.divw, fun a b => if b = 0 then -1 else (signed 32 a).tdiv (signed 32 b)),
      (.divuw, fun a b => if b = 0 then -1 else (a / b : Nat)),
      (.remw, fun a b => if b = 0 then a else (signed 32 a).tmod (signed 32 b)),
      (.remuw, fun a b => if b = 0 then a else (a % b : Nat))] :
      List ((RegIdx → RegIdx → RegIdx → Instr) × (Nat → Nat → Int))),
    ∀ (rd rs1 rs2 : RegIdx) (s : State),
      WritesX s (exec (row.1 rd rs1 rs2) s) 4 rd
        (wrap s (Int.bmod (row.2 (uval s rs1 % 2 ^ 32) (uval s rs2 % 2 ^ 32)) (2 ^ 32))))
  ∧ (∀ (rd rs1 : RegIdx) (imm : BitVec 12) (s : State),
      WritesX s (exec (.addiw rd rs1 imm) s) 4 rd (wrap s (Int.bmod (uval s rs1 + imm.toInt) (2 ^ 32))))
  ∧ (∀ row ∈ ([
      (.slliw, fun a k => a * 2 ^ k),
      (.srliw, fun a k => (a / 2 ^ k : Nat)),
      (.sraiw, fun a k => signed 32 a / 2 ^ k)] :
      List ((RegIdx → RegIdx → BitVec 5 → Instr) × (Nat → Nat → Int))),
    ∀ (rd rs1 : RegIdx) (shamt : BitVec 5) (s : State),
      WritesX s (exec (row.1 rd rs1 shamt) s) 4 rd
        (wrap s (Int.bmod (row.2 (uval s rs1 % 2 ^ 32) shamt.toNat) (2 ^ 32))))

/-- 42_m_multiply_divide.md R230 to R238: products over the exact integers, quotients toward zero, all ones and the dividend
for a zero divisor, the wrapped quotient and remainder zero on signed overflow. Nothing but rd and pc changes. -/
def Obligations.MultiplyAndDivideComplete : Prop :=
  ∀ row ∈ ([
      (.mul, fun _ a b => a * b),
      (.mulh, fun n a b => signed n a * signed n b / 2 ^ n),
      (.mulhsu, fun n a b => signed n a * b / 2 ^ n),
      (.mulhu, fun n a b => (a * b / 2 ^ n : Nat)),
      (.div, fun n a b => if b = 0 then -1 else (signed n a).tdiv (signed n b)),
      (.divu, fun _ a b => if b = 0 then -1 else (a / b : Nat)),
      (.rem, fun n a b => if b = 0 then a else (signed n a).tmod (signed n b)),
      (.remu, fun _ a b => if b = 0 then a else (a % b : Nat))] :
      List ((RegIdx → RegIdx → RegIdx → Instr) × (Nat → Nat → Nat → Int))),
    ∀ (rd rs1 rs2 : RegIdx) (s : State),
      WritesX s (exec (row.1 rd rs1 rs2) s) 4 rd (wrap s (row.2 s.cfg.xlen.bits (uval s rs1) (uval s rs2)))

/-- 47_b_bit_manipulation.md R442 to R451, R458 to R461, R465 to R470: the address-generating, logical, min/max and rotating
instructions of B. Nothing but rd and pc changes. -/
def Obligations.BitmanipArithmeticCompletes : Prop :=
  (∀ row ∈ ([
      (.addUw, fun _ a b => (a % 2 ^ 32 : Nat) + b),
      (.sh1add, fun _ a b => a * 2 + b),
      (.sh1addUw, fun _ a b => (a % 2 ^ 32 : Nat) * 2 + b),
      (.sh2add, fun _ a b => a * 4 + b),
      (.sh2addUw, fun _ a b => (a % 2 ^ 32 : Nat) * 4 + b),
      (.sh3add, fun _ a b => a * 8 + b),
      (.sh3addUw, fun _ a b => (a % 2 ^ 32 : Nat) * 8 + b),
      (.andn, fun n a b => ofBits (fun k => a.testBit k && !b.testBit k) n),
      (.orn, fun n a b => ofBits (fun k => a.testBit k || !b.testBit k) n),
      (.xnor, fun n a b => ofBits (fun k => a.testBit k == b.testBit k) n),
      (.max, fun n a b => max (signed n a) (signed n b)),
      (.maxu, fun _ a b => (max a b : Nat)),
      (.min, fun n a b => min (signed n a) (signed n b)),
      (.minu, fun _ a b => (min a b : Nat)),
      (.rol, fun n a b => ofBits (fun k => a.testBit ((k + n - b % n) % n)) n),
      (.ror, fun n a b => ofBits (fun k => a.testBit ((k + b % n) % n)) n),
      (.rolw, fun _ a b => signed 32 (ofBits (fun k => a.testBit ((k + 32 - b % 32) % 32)) 32)),
      (.rorw, fun _ a b => signed 32 (ofBits (fun k => a.testBit ((k + b % 32) % 32)) 32))] :
      List ((RegIdx → RegIdx → RegIdx → Instr) × (Nat → Nat → Nat → Int))),
    ∀ (rd rs1 rs2 : RegIdx) (s : State),
      WritesX s (exec (row.1 rd rs1 rs2) s) 4 rd (wrap s (row.2 s.cfg.xlen.bits (uval s rs1) (uval s rs2))))
  ∧ (∀ (rd rs1 : RegIdx) (shamt : BitVec 6) (s : State), shamt.toNat < s.cfg.xlen.bits →
      WritesX s (exec (.slliUw rd rs1 shamt) s) 4 rd (wrap s ((uval s rs1 % 2 ^ 32 : Nat) * 2 ^ shamt.toNat))
      ∧ WritesX s (exec (.rori rd rs1 shamt) s) 4 rd
          (wrap s (ofBits (fun k => (uval s rs1).testBit ((k + shamt.toNat) % s.cfg.xlen.bits)) s.cfg.xlen.bits)))
  ∧ (∀ (rd rs1 : RegIdx) (shamt : BitVec 5) (s : State),
      WritesX s (exec (.roriw rd rs1 shamt) s) 4 rd
        (wrap s (signed 32 (ofBits (fun k => (uval s rs1).testBit ((k + shamt.toNat) % 32)) 32))))

/-- 47_b_bit_manipulation.md R440, R452 to R457, R462 to R464, R471, R472: the instructions of B with one operand: counts of
zeros and ones, sign and zero extension, or-combine, byte reversal. Nothing but rd and pc changes. -/
def Obligations.BitmanipUnaryCompletes : Prop :=
  ∀ row ∈ ([
      (.clz, fun n a => ((List.range n).find? (fun k => a.testBit (n - 1 - k))).getD n),
      (.clzw, fun _ a => ((List.range 32).find? (fun k => a.testBit (31 - k))).getD 32),
      (.ctz, fun n a => ((List.range n).find? (fun k => a.testBit k)).getD n),
      (.ctzw, fun _ a => ((List.range 32).find? (fun k => a.testBit k)).getD 32),
      (.cpop, fun n a => (List.range n).countP (fun k => a.testBit k)),
      (.cpopw, fun _ a => (List.range 32).countP (fun k => a.testBit k)),
      (.sextB, fun _ a => signed 8 a),
      (.sextH, fun _ a => signed 16 a),
      (.zextHRv32, fun _ a => (a % 2 ^ 16 : Nat)),
      (.zextHRv64, fun _ a => (a % 2 ^ 16 : Nat)),
      (.orcB, fun n a => ofBits (fun k => (List.range 8).any (fun j => a.testBit (k / 8 * 8 + j))) n),
      (.rev8Rv32, fun n a => ofBits (fun k => a.testBit (n - 8 - k / 8 * 8 + k % 8)) n),
      (.rev8Rv64, fun n a => ofBits (fun k => a.testBit (n - 8 - k / 8 * 8 + k % 8)) n)] :
      List ((RegIdx → RegIdx → Instr) × (Nat → Nat → Int))),
    ∀ (rd rs1 : RegIdx) (s : State),
      WritesX s (exec (row.1 rd rs1) s) 4 rd (wrap s (row.2 s.cfg.xlen.bits (uval s rs1)))

/-- Bit k of the carry-less product of a and b: the parity of the number of pairs of set bits whose places add to k
(47_b_bit_manipulation.md R440). -/
def Sys2Proof.Machine.carrylessBit (a b k : Nat) : Bool :=
  (List.range (k + 1)).countP (fun j => a.testBit j && b.testBit (k - j)) % 2 == 1

/-- 47_b_bit_manipulation.md R440, R473 to R483: carry-less products and single-bit instructions. Nothing but rd and pc
changes. -/
def Obligations.BitmanipBitInstructionsComplete : Prop :=
  (∀ row ∈ ([
      (.clmul, fun n a b => ofBits (fun k => carrylessBit a b k) n),
      (.clmulh, fun n a b => ofBits (fun k => carrylessBit a b (k + n)) n),
      (.clmulr, fun n a b => ofBits (fun k => carrylessBit a b (k + n - 1)) n),
      (.bclr, fun n a b => ofBits (fun k => a.testBit k && k != b % n) n),
      (.bext, fun n a b => truth (a.testBit (b % n))),
      (.binv, fun n a b => ofBits (fun k => a.testBit k != (k == b % n)) n),
      (.bset, fun n a b => ofBits (fun k => a.testBit k || k == b % n) n)] :
      List ((RegIdx → RegIdx → RegIdx → Instr) × (Nat → Nat → Nat → Int))),
    ∀ (rd rs1 rs2 : RegIdx) (s : State),
      WritesX s (exec (row.1 rd rs1 rs2) s) 4 rd (wrap s (row.2 s.cfg.xlen.bits (uval s rs1) (uval s rs2))))
  ∧ (∀ row ∈ ([
      (.bclri, fun n a i => ofBits (fun k => a.testBit k && k != i) n),
      (.bexti, fun _ a i => truth (a.testBit i)),
      (.binvi, fun n a i => ofBits (fun k => a.testBit k != (k == i)) n),
      (.bseti, fun n a i => ofBits (fun k => a.testBit k || k == i) n)] :
      List ((RegIdx → RegIdx → BitVec 6 → Instr) × (Nat → Nat → Nat → Int))),
    ∀ (rd rs1 : RegIdx) (shamt : BitVec 6) (s : State), shamt.toNat < s.cfg.xlen.bits →
      WritesX s (exec (row.1 rd rs1 shamt) s) 4 rd (wrap s (row.2 s.cfg.xlen.bits (uval s rs1) shamt.toNat)))

/-! Loads and stores. -/

/-- 41_base_memory_control_rv64i.md R190 to R194, R215, R216; 46_c_compressed.md R397, R399, R425, R427; 49_zc_code_size.md
R556 to R558: a load whose bytes are mapped for reading, hold v as a little-endian number and raise no misalignment completes:
rd receives v, sign- or zero-extended, and nothing else but pc changes. Rows give the width in bytes and whether the value is
signed. -/
def Obligations.LoadsComplete : Prop :=
  (∀ row ∈ ([(.lb, 1, true), (.lh, 2, true), (.lw, 4, true), (.lbu, 1, false), (.lhu, 2, false), (.lwu, 4, false), (.ld, 8, false)] :
      List ((RegIdx → RegIdx → BitVec 12 → Instr) × Nat × Bool)),
    ∀ (rd rs1 : RegIdx) (imm : BitVec 12) (s : State) (v : Nat),
      let addr := immAddr s rs1 imm
      AlignedOrEmulated s addr row.2.1 → Mapped s .load addr row.2.1 → Holds s addr row.2.1 v →
      WritesX s (exec (row.1 rd rs1 imm) s) 4 rd (wrap s (if row.2.2 then signed (8 * row.2.1) v else v)))
  ∧ (∀ (rd rs1 : CRegIdx) (uimm : BitVec 5) (s : State) (v : Nat),
      (let addr := offAddr s (creg rs1) (uimm ++ 0#2)
       AlignedOrEmulated s addr 4 → Mapped s .load addr 4 → Holds s addr 4 v →
       WritesX s (exec (.cLw rd rs1 uimm) s) 2 (creg rd) (wrap s (signed 32 v)))
      ∧ (let addr := offAddr s (creg rs1) (uimm ++ 0#3)
         AlignedOrEmulated s addr 8 → Mapped s .load addr 8 → Holds s addr 8 v →
         WritesX s (exec (.cLd rd rs1 uimm) s) 2 (creg rd) (wrap s v)))
  ∧ (∀ (rd : RegIdx) (uimm : BitVec 6) (s : State) (v : Nat),
      (let addr := offAddr s 2#5 (uimm ++ 0#2)
       AlignedOrEmulated s addr 4 → Mapped s .load addr 4 → Holds s addr 4 v →
       WritesX s (exec (.cLwsp rd uimm) s) 2 rd (wrap s (signed 32 v)))
      ∧ (let addr := offAddr s 2#5 (uimm ++ 0#3)
         AlignedOrEmulated s addr 8 → Mapped s .load addr 8 → Holds s addr 8 v →
         WritesX s (exec (.cLdsp rd uimm) s) 2 rd (wrap s v)))
  ∧ (∀ (rd rs1 : CRegIdx) (s : State) (v : Nat),
      (∀ uimm : BitVec 2,
        let addr := offAddr s (creg rs1) uimm
        Mapped s .load addr 1 → Holds s addr 1 v → WritesX s (exec (.cLbu rd rs1 uimm) s) 2 (creg rd) (wrap s v))
      ∧ (∀ uimm : BitVec 1,
          let addr := offAddr s (creg rs1) (uimm ++ 0#1)
          AlignedOrEmulated s addr 2 → Mapped s .load addr 2 → Holds s addr 2 v →
          WritesX s (exec (.cLhu rd rs1 uimm) s) 2 (creg rd) (wrap s v)
          ∧ WritesX s (exec (.cLh rd rs1 uimm) s) 2 (creg rd) (wrap s (signed 16 v))))

/-- 41_base_memory_control_rv64i.md R195 to R197, R217; 46_c_compressed.md R401, R403, R434, R436; 49_zc_code_size.md R559,
R560: a store whose bytes are mapped for writing and which raises no misalignment completes: the low bytes of the source lie
at the address, every byte outside them and everything else but pc and the fetch-coherence set is as before. Rows give the
width in bytes. -/
def Obligations.StoresComplete : Prop :=
  (∀ row ∈ ([(.sb, 1), (.sh, 2), (.sw, 4), (.sd, 8)] : List ((RegIdx → RegIdx → BitVec 12 → Instr) × Nat)),
    ∀ (rs1 rs2 : RegIdx) (imm : BitVec 12) (s : State),
      let addr := immAddr s rs1 imm
      AlignedOrEmulated s addr row.2 → Mapped s .store addr row.2 →
      StoresBytes s (exec (row.1 rs1 rs2 imm) s) 4 addr row.2 (uval s rs2))
  ∧ (∀ (rs1 rs2 : CRegIdx) (uimm : BitVec 5) (s : State),
      (let addr := offAddr s (creg rs1) (uimm ++ 0#2)
       AlignedOrEmulated s addr 4 → Mapped s .store addr 4 →
       StoresBytes s (exec (.cSw rs1 rs2 uimm) s) 2 addr 4 (uval s (creg rs2)))
      ∧ (let addr := offAddr s (creg rs1) (uimm ++ 0#3)
         AlignedOrEmulated s addr 8 → Mapped s .store addr 8 →
         StoresBytes s (exec (.cSd rs1 rs2 uimm) s) 2 addr 8 (uval s (creg rs2))))
  ∧ (∀ (rs2 : RegIdx) (uimm : BitVec 6) (s : State),
      (let addr := offAddr s 2#5 (uimm ++ 0#2)
       AlignedOrEmulated s addr 4 → Mapped s .store addr 4 →
       StoresBytes s (exec (.cSwsp rs2 uimm) s) 2 addr 4 (uval s rs2))
      ∧ (let addr := offAddr s 2#5 (uimm ++ 0#3)
         AlignedOrEmulated s addr 8 → Mapped s .store addr 8 →
         StoresBytes s (exec (.cSdsp rs2 uimm) s) 2 addr 8 (uval s rs2)))
  ∧ (∀ (rs1 rs2 : CRegIdx) (s : State),
      (∀ uimm : BitVec 2,
        let addr := offAddr s (creg rs1) uimm
        Mapped s .store addr 1 → StoresBytes s (exec (.cSb rs1 rs2 uimm) s) 2 addr 1 (uval s (creg rs2)))
      ∧ (∀ uimm : BitVec 1,
          let addr := offAddr s (creg rs1) (uimm ++ 0#1)
          AlignedOrEmulated s addr 2 → Mapped s .store addr 2 →
          StoresBytes s (exec (.cSh rs1 rs2 uimm) s) 2 addr 2 (uval s (creg rs2))))

/-- 60_exceptions.md R605 to R608, R611, R615: where the accesses trap, with the address as trap value. A load or store that
is misaligned under MISALIGNED = `trap` raises address-misaligned, whether or not it is mapped; one with an unmapped byte and
no misalignment raises access-fault; lr, sc and the AMOs must be aligned under either setting. Rows give the instruction,
whether it stores, the address, the width and whether it needs the floating-point unit. -/
def Obligations.UnreachableAccessesTrap : Prop :=
  (∀ (rd rs1 rs2 : RegIdx) (cr1 cr2 : CRegIdx) (imm : BitVec 12) (u6 : BitVec 6) (u5 : BitVec 5) (u2 : BitVec 2) (u1 : BitVec 1)
      (s : State),
    ∀ row ∈ ([
        (.lb rd rs1 imm, false, immAddr s rs1 imm, 1, false), (.lh rd rs1 imm, false, immAddr s rs1 imm, 2, false),
        (.lw rd rs1 imm, false, immAddr s rs1 imm, 4, false), (.lbu rd rs1 imm, false, immAddr s rs1 imm, 1, false),
        (.lhu rd rs1 imm, false, immAddr s rs1 imm, 2, false), (.lwu rd rs1 imm, false, immAddr s rs1 imm, 4, false),
        (.ld rd rs1 imm, false, immAddr s rs1 imm, 8, false), (.flh rd rs1 imm, false, immAddr s rs1 imm, 2, true),
        (.flw rd rs1 imm, false, immAddr s rs1 imm, 4, true), (.fld rd rs1 imm, false, immAddr s rs1 imm, 8, true),
        (.sb rs1 rs2 imm, true, immAddr s rs1 imm, 1, false), (.sh rs1 rs2 imm, true, immAddr s rs1 imm, 2, false),
        (.sw rs1 rs2 imm, true, immAddr s rs1 imm, 4, false), (.sd rs1 rs2 imm, true, immAddr s rs1 imm, 8, false),
        (.fsh rs1 rs2 imm, true, immAddr s rs1 imm, 2, true), (.fsw rs1 rs2 imm, true, immAddr s rs1 imm, 4, true),
        (.fsd rs1 rs2 imm, true, immAddr s rs1 imm, 8, true),
        (.cLw cr2 cr1 u5, false, offAddr s (creg cr1) (u5 ++ 0#2), 4, false),
        (.cLd cr2 cr1 u5, false, offAddr s (creg cr1) (u5 ++ 0#3), 8, false),
        (.cFlw cr2 cr1 u5, false, offAddr s (creg cr1) (u5 ++ 0#2), 4, true),
        (.cFld cr2 cr1 u5, false, offAddr s (creg cr1) (u5 ++ 0#3), 8, true),
        (.cLwsp rd u6, false, offAddr s 2#5 (u6 ++ 0#2), 4, false), (.cLdsp rd u6, false, offAddr s 2#5 (u6 ++ 0#3), 8, false),
        (.cFlwsp rd u6, false, offAddr s 2#5 (u6 ++ 0#2), 4, true), (.cFldsp rd u6, false, offAddr s 2#5 (u6 ++ 0#3), 8, true),
        (.cLbu cr2 cr1 u2, false, offAddr s (creg cr1) u2, 1, false),
        (.cLhu cr2 cr1 u1, false, offAddr s (creg cr1) (u1 ++ 0#1), 2, false),
        (.cLh cr2 cr1 u1, false, offAddr s (creg cr1) (u1 ++ 0#1), 2, false),
        (.cSw cr1 cr2 u5, true, offAddr s (creg cr1) (u5 ++ 0#2), 4, false),
        (.cSd cr1 cr2 u5, true, offAddr s (creg cr1) (u5 ++ 0#3), 8, false),
        (.cFsw cr1 cr2 u5, true, offAddr s (creg cr1) (u5 ++ 0#2), 4, true),
        (.cFsd cr1 cr2 u5, true, offAddr s (creg cr1) (u5 ++ 0#3), 8, true),
        (.cSwsp rs2 u6, true, offAddr s 2#5 (u6 ++ 0#2), 4, false), (.cSdsp rs2 u6, true, offAddr s 2#5 (u6 ++ 0#3), 8, false),
        (.cFswsp rs2 u6, true, offAddr s 2#5 (u6 ++ 0#2), 4, true), (.cFsdsp rs2 u6, true, offAddr s 2#5 (u6 ++ 0#3), 8, true),
        (.cSb cr1 cr2 u2, true, offAddr s (creg cr1) u2, 1, false),
        (.cSh cr1 cr2 u1, true, offAddr s (creg cr1) (u1 ++ 0#1), 2, false)] :
        List (Instr × Bool × Word × Nat × Bool)),
      let addr := row.2.2.1
      let w := row.2.2.2.1
      (row.2.2.2.2 = true → FpOn s) →
      (¬AlignedOrEmulated s addr w →
        Traps s (exec row.1 s) (if row.2.1 then .storeAddrMisaligned else .loadAddrMisaligned) addr)
      ∧ (AlignedOrEmulated s addr w → ¬Mapped s (if row.2.1 then .store else .load) addr w →
          Traps s (exec row.1 s) (if row.2.1 then .storeAccessFault else .loadAccessFault) addr))
  ∧ (∀ row ∈ ([(.lrW, 4), (.lrD, 8)] : List ((RegIdx → RegIdx → BitVec 1 → BitVec 1 → Instr) × Nat)),
    ∀ (rd rs1 : RegIdx) (aq rl : BitVec 1) (s : State),
      let addr := s.getX rs1
      (addr.toNat % row.2 ≠ 0 → Traps s (exec (row.1 rd rs1 aq rl) s) .loadAddrMisaligned addr)
      ∧ (addr.toNat % row.2 = 0 → ¬Mapped s .load addr row.2 → Traps s (exec (row.1 rd rs1 aq rl) s) .loadAccessFault addr))
  ∧ (∀ row ∈ ([(.scW, 4), (.amoswapW, 4), (.amoaddW, 4), (.amoxorW, 4), (.amoandW, 4), (.amoorW, 4), (.amominW, 4), (.amomaxW, 4),
        (.amominuW, 4), (.amomaxuW, 4), (.scD, 8), (.amoswapD, 8), (.amoaddD, 8), (.amoxorD, 8), (.amoandD, 8), (.amoorD, 8),
        (.amominD, 8), (.amomaxD, 8), (.amominuD, 8), (.amomaxuD, 8)] :
      List ((RegIdx → RegIdx → RegIdx → BitVec 1 → BitVec 1 → Instr) × Nat)),
    ∀ (rd rs1 rs2 : RegIdx) (aq rl : BitVec 1) (s : State),
      let addr := s.getX rs1
      (addr.toNat % row.2 ≠ 0 → Traps s (exec (row.1 rd rs1 rs2 aq rl) s) .storeAddrMisaligned addr)
      ∧ (addr.toNat % row.2 = 0 → ¬Mapped s .atomic addr row.2 →
          Traps s (exec (row.1 rd rs1 rs2 aq rl) s) .storeAccessFault addr))

/-! Control flow. -/

/-- 41_base_memory_control_rv64i.md R198, R199; 46_c_compressed.md R406, R420, R428, R431: a jump to an instruction address
moves pc there, and a linking jump writes the address after itself to its link register, the target taken from the register
before that. Nothing else changes. The compressed jumps need no condition on the target but the one every decoded instruction
meets: C is there. -/
def Obligations.JumpsComplete : Prop :=
  (∀ (rd rs1 : RegIdx) (imm20 : BitVec 20) (imm12 : BitVec 12) (s : State),
    (let target := wrap s (s.pc.toNat + imm20.toInt * 2)
     target.toNat % s.cfg.ext.ialignBytes = 0 → JumpsLinking s (exec (.jal rd imm20) s) 4 rd target)
    ∧ (let target := wrap s ((uval s rs1 + imm12.toInt) / 2 * 2)
       target.toNat % s.cfg.ext.ialignBytes = 0 → JumpsLinking s (exec (.jalr rd rs1 imm12) s) 4 rd target))
  ∧ (∀ (rs1 : RegIdx) (imm : BitVec 11) (s : State), s.cfg.ext.c = true →
      MovesPc s (exec (.cJ imm) s) (wrap s (s.pc.toNat + imm.toInt * 2))
      ∧ JumpsLinking s (exec (.cJal imm) s) 2 1#5 (wrap s (s.pc.toNat + imm.toInt * 2))
      ∧ MovesPc s (exec (.cJr rs1) s) (BitVec.ofNat 64 (uval s rs1 / 2 * 2))
      ∧ JumpsLinking s (exec (.cJalr rs1) s) 2 1#5 (BitVec.ofNat 64 (uval s rs1 / 2 * 2)))

/-- 41_base_memory_control_rv64i.md R200 to R205; 46_c_compressed.md R421, R422: a branch whose condition holds moves pc by
its offset when the target is an instruction address; one whose condition does not hold moves pc past itself, whatever the
offset. Nothing else changes. Rows give the condition on XLEN and the unsigned readings of rs1 and rs2. -/
def Obligations.BranchesComplete : Prop :=
  (∀ row ∈ ([
      (.beq, fun _ a b => a == b),
      (.bne, fun _ a b => a != b),
      (.blt, fun n a b => decide (signed n a < signed n b)),
      (.bge, fun n a b => decide (signed n a ≥ signed n b)),
      (.bltu, fun _ a b => decide (a < b)),
      (.bgeu, fun _ a b => decide (a ≥ b))] :
      List ((RegIdx → RegIdx → BitVec 12 → Instr) × (Nat → Nat → Nat → Bool))),
    ∀ (rs1 rs2 : RegIdx) (imm : BitVec 12) (s : State),
      let target := wrap s (s.pc.toNat + imm.toInt * 2)
      (row.2 s.cfg.xlen.bits (uval s rs1) (uval s rs2) = true → target.toNat % s.cfg.ext.ialignBytes = 0 →
        MovesPc s (exec (row.1 rs1 rs2 imm) s) target)
      ∧ (row.2 s.cfg.xlen.bits (uval s rs1) (uval s rs2) = false →
          MovesPc s (exec (row.1 rs1 rs2 imm) s) (wrap s (s.pc.toNat + 4))))
  ∧ (∀ (rs1 : CRegIdx) (imm : BitVec 8) (s : State), s.cfg.ext.c = true →
      let target := wrap s (s.pc.toNat + imm.toInt * 2)
      let past := wrap s (s.pc.toNat + 2)
      MovesPc s (exec (.cBeqz rs1 imm) s) (if uval s (creg rs1) = 0 then target else past)
      ∧ MovesPc s (exec (.cBnez rs1 imm) s) (if uval s (creg rs1) = 0 then past else target))

/-- 60_exceptions.md R601, R615: a jump or a taken branch to an address that is not a multiple of IALIGN/8 raises
instruction-address-misaligned with the target as trap value; neither pc nor the link register is written. -/
def Obligations.MisalignedTargetsTrap : Prop :=
  ∀ (rd rs1 rs2 : RegIdx) (imm20 : BitVec 20) (imm12 : BitVec 12) (s : State),
    (let target := wrap s (s.pc.toNat + imm20.toInt * 2)
     target.toNat % s.cfg.ext.ialignBytes ≠ 0 → Traps s (exec (.jal rd imm20) s) .instrAddrMisaligned target)
    ∧ (let target := wrap s ((uval s rs1 + imm12.toInt) / 2 * 2)
       target.toNat % s.cfg.ext.ialignBytes ≠ 0 → Traps s (exec (.jalr rd rs1 imm12) s) .instrAddrMisaligned target)
    ∧ (let target := wrap s (s.pc.toNat + imm12.toInt * 2)
       let n := s.cfg.xlen.bits
       target.toNat % s.cfg.ext.ialignBytes ≠ 0 →
       (uval s rs1 = uval s rs2 → Traps s (exec (.beq rs1 rs2 imm12) s) .instrAddrMisaligned target)
       ∧ (uval s rs1 ≠ uval s rs2 → Traps s (exec (.bne rs1 rs2 imm12) s) .instrAddrMisaligned target)
       ∧ (signed n (uval s rs1) < signed n (uval s rs2) → Traps s (exec (.blt rs1 rs2 imm12) s) .instrAddrMisaligned target)
       ∧ (signed n (uval s rs1) ≥ signed n (uval s rs2) → Traps s (exec (.bge rs1 rs2 imm12) s) .instrAddrMisaligned target)
       ∧ (uval s rs1 < uval s rs2 → Traps s (exec (.bltu rs1 rs2 imm12) s) .instrAddrMisaligned target)
       ∧ (uval s rs1 ≥ uval s rs2 → Traps s (exec (.bgeu rs1 rs2 imm12) s) .instrAddrMisaligned target))

/-! System instructions. -/

/-- 40_base_compute_system.md R171, R184; 46_c_compressed.md R404; 20_memory.md R75 to R80: on one hart fence, c.nop and,
where the mode allows it, sfence.vma only move pc. -/
def Obligations.FencesOnlyMovePc : Prop :=
  ∀ (rd rs1 rs2 : RegIdx) (fm pred succ : BitVec 4) (imm : BitVec 6) (s : State),
    MovesPc s (exec (.fence rd rs1 fm pred succ) s) (wrap s (s.pc.toNat + 4))
    ∧ MovesPc s (exec (.cNop imm) s) (wrap s (s.pc.toNat + 2))
    ∧ (s.priv = .M ∨ (s.priv = .S ∧ s.mstatus.tvm = false) →
        MovesPc s (exec (.sfenceVma rs1 rs2) s) (wrap s (s.pc.toNat + 4)))

/-- 40_base_compute_system.md R183, 60_exceptions.md R627: where the mode allows it, wfi retires, or stays at its own pc for this
step; nothing else changes but the count of free values. Which of the two is the model's free value (DESIGN CHOICE, log 11: bit
0 of the next one), of which nothing is known, so both are admitted and the statement holds for both. -/
def Obligations.WaitForInterruptRetiresOrStays : Prop :=
  ∀ s : State,
    s.priv = .M ∨ (s.priv = .S ∧ s.mstatus.tw = false) ∨ (s.priv = .U ∧ s.mstatus.tw = false ∧ s.cfg.wfiInUMode = true) →
    ∃ t, exec .wfi s = .next t
      ∧ t.pc = (if (Config.freeWord s.draws).getLsbD 0 then wrap s (s.pc.toNat + 4) else s.pc)
      ∧ SameMemory s t
      ∧ t = { s with pc := t.pc, draws := s.draws + 1 }

/-- 60_exceptions.md R609: ecall raises the environment call of the mode it runs in, epc its own pc, trap value 0, and does
nothing else; there is no compressed ecall. -/
def Obligations.EnvironmentCallByMode : Prop :=
  (∀ s : State,
    (s.priv = .U → Traps s (exec .ecall s) .ecallU 0#64)
    ∧ (s.priv = .S → Traps s (exec .ecall s) .ecallS 0#64)
    ∧ (s.priv = .M → Traps s (exec .ecall s) .ecallM 0#64))
  ∧ Exc.ecallU.code = 8#64 ∧ Exc.ecallS.code = 9#64 ∧ Exc.ecallM.code = 11#64
  ∧ (∀ (xlen : Xlen) (ext : Ext) (w : BitVec 16), decode xlen ext (.half w) ≠ some .ecall)

/-- 60_exceptions.md R604: ebreak and c.ebreak raise breakpoint, epc and trap value their own pc, and nothing else raises one.
-/
def Obligations.BreakpointOnlyFromEbreak : Prop :=
  (∀ s : State, Traps s (exec .ebreak s) .breakpoint s.pc ∧ Traps s (exec .cEbreak s) .breakpoint s.pc)
  ∧ (∀ (i : Instr) (s u : State) (epc tval : Word), exec i s = .fault (.trap .breakpoint epc tval u) → i = .ebreak ∨ i = .cEbreak)
  ∧ (∀ (i : Instr) (s t : State), exec i s = .next t → s.mcause ≠ Exc.breakpoint.code → t.mcause = Exc.breakpoint.code →
      i = .ebreak ∨ i = .cEbreak ∨ ∃ rd rs1 csr uimm, i ∈ [Instr.csrrw rd rs1 csr, .csrrs rd rs1 csr, .csrrc rd rs1 csr,
        .csrrwi rd csr uimm, .csrrsi rd csr uimm, .csrrci rd csr uimm])

/-- 40_base_compute_system.md R181, R182; 10_state.md R34, R35: mret in M and sret in S (with TSR clear) or M return: the
mode, the interrupt enables and pc come from the saved ones, MPRV is cleared where the rules say so, a reservation may be lost
(20_memory.md R81). Nothing else changes. -/
def Obligations.TrapReturnsComplete : Prop :=
  (∀ s : State, s.priv = .M →
    ∃ t, exec .mret s = .next t
      ∧ t.priv = s.mstatus.mpp ∧ t.pc = epcValue s.cfg s.mepc
      ∧ t.mstatus = { s.mstatus with
          mie := s.mstatus.mpie, mpie := true, mpp := .U, mprv := if s.mstatus.mpp = .M then s.mstatus.mprv else false }
      ∧ (t.reservation = s.reservation ∨ t.reservation = none) ∧ SameMemory s t
      ∧ t = { s with priv := t.priv, pc := t.pc, mstatus := t.mstatus, reservation := t.reservation, draws := t.draws })
  ∧ (∀ s : State, s.priv = .M ∨ (s.priv = .S ∧ s.mstatus.tsr = false) →
    ∃ t, exec .sret s = .next t
      ∧ t.priv = (if s.mstatus.spp then .S else .U) ∧ t.pc = epcValue s.cfg s.sepc
      ∧ t.mstatus = { s.mstatus with sie := s.mstatus.spie, spie := true, spp := false, mprv := false }
      ∧ (t.reservation = s.reservation ∨ t.reservation = none) ∧ SameMemory s t
      ∧ t = { s with priv := t.priv, pc := t.pc, mstatus := t.mstatus, reservation := t.reservation, draws := t.draws })

/-- 60_exceptions.md R603, R621 (b): the privileged instructions in a mode that may not run them raise illegal-instruction
with their own bits as trap value. -/
def Obligations.PrivilegedInstructionsAreIllegalBelow : Prop :=
  ∀ (s : State) (rs1 rs2 : RegIdx),
    (s.priv ≠ .M → Traps s (exec .mret s) .illegalInstruction 0x30200073#64)
    ∧ (s.priv = .U ∨ (s.priv = .S ∧ s.mstatus.tsr = true) → Traps s (exec .sret s) .illegalInstruction 0x10200073#64)
    ∧ (s.priv = .U ∨ (s.priv = .S ∧ s.mstatus.tvm = true) →
        Traps s (exec (.sfenceVma rs1 rs2) s) .illegalInstruction
          (BitVec.ofNat 64 (0x12000073 + rs1.toNat * 2 ^ 15 + rs2.toNat * 2 ^ 20)))
    ∧ ((s.priv ≠ .M ∧ s.mstatus.tw = true) ∨ (s.priv = .U ∧ s.cfg.wfiInUMode = false) →
        Traps s (exec .wfi s) .illegalInstruction 0x10500073#64)

/-! Control and status registers. -/

/-- Bit k of a CSR as an instruction reads it, none where the spec leaves it open (10_state.md R31 to R38). -/
def Sys2Proof.Machine.csrBit (s : State) (c : Csr) (k : Nat) : Option Bool :=
  let fs : BitVec 2 := if s.cfg.ext.f then s.mstatus.fs else 0#2
  let status (machine : Bool) : Option Bool :=
    if k = 1 then some s.mstatus.sie
    else if k = 5 then some s.mstatus.spie
    else if k = 8 then some s.mstatus.spp
    else if k = 13 then some (fs.getLsbD 0)
    else if k = 14 then some (fs.getLsbD 1)
    else if k = s.cfg.xlen.bits - 1 then some (decide (fs = 3#2))
    else if k = 3 then some (machine && s.mstatus.mie)
    else if k = 7 then some (machine && s.mstatus.mpie)
    else if k = 11 then some (machine && s.mstatus.mpp != .U)
    else if k = 12 then some (machine && s.mstatus.mpp == .M)
    else if k = 17 then some (machine && s.mstatus.mprv)
    else if k = 20 then some (machine && s.mstatus.tvm)
    else if k = 21 then some (machine && s.mstatus.tw)
    else if k = 22 then some (machine && s.mstatus.tsr)
    else none
  let epc (w : Word) : Option Bool := some (w.getLsbD k && k != 0 && (k != 1 || s.cfg.ext.c))
  match c with
  | .fflags => some (s.fflags.getLsbD k)
  | .frm => some (s.frm.getLsbD k)
  | .fcsr => some (if k < 5 then s.fflags.getLsbD k else s.frm.getLsbD (k - 5))
  | .jvt => some (s.jvt.getLsbD k)
  | .sstatus => status false
  | .stvec => some (s.stvec.getLsbD k)
  | .sscratch => some (s.sscratch.getLsbD k)
  | .sepc => epc s.sepc
  | .scause => some (s.scause.getLsbD k)
  | .stval => some (s.stval.getLsbD k)
  | .mstatus => status true
  | .mtvec => some (s.mtvec.getLsbD k)
  | .mscratch => some (s.mscratch.getLsbD k)
  | .mepc => epc s.mepc
  | .mcause => some (s.mcause.getLsbD k)
  | .mtval => some (s.mtval.getLsbD k)

/-- Whether a write of a CSR stores bit k as written (10_state.md R31 to R38). SD is read-only; what MPP and MODE take is said
apart. -/
def Sys2Proof.Machine.csrStores (cfg : Config) (c : Csr) (k : Nat) : Bool :=
  match c with
  | .fflags => k < 5
  | .frm => k < 3
  | .fcsr => k < 8
  | .sstatus => k == 1 || k == 5 || k == 8 || ((k == 13 || k == 14) && cfg.ext.f)
  | .mstatus =>
    k == 1 || k == 3 || k == 5 || k == 7 || k == 8 || ((k == 13 || k == 14) && cfg.ext.f) || k == 17 || k == 20 || k == 21
      || k == 22
  | .mepc => k != 0 && (k != 1 || cfg.ext.c)
  | .sepc => k != 0 && (k != 1 || cfg.ext.c)
  | .mtvec => k != 0 && k != 1
  | .stvec => k != 0 && k != 1
  | _ => true

/-- Whether bit k of a CSR belongs to a field whose value after a write is said apart: MPP, MODE, SD. -/
def Sys2Proof.Machine.csrSpecial (cfg : Config) (c : Csr) (k : Nat) : Bool :=
  match c with
  | .mstatus => k == 11 || k == 12 || k == cfg.xlen.bits - 1
  | .sstatus => k == cfg.xlen.bits - 1
  | .mtvec => k == 0 || k == 1
  | .stvec => k == 0 || k == 1
  | _ => false

/-- All that a CSR instruction may change besides rd: pc, the fields its CSR shows, FS when the CSR is a floating-point one,
and the model's count of free values. -/
def Sys2Proof.Machine.OnlyCsrChanged (s t : State) (c : Csr) : Prop :=
  let u : State := { s with x := t.x, pc := t.pc, draws := t.draws }
  match c with
  | .fflags => t = { u with fflags := t.fflags, mstatus := dirtied s }
  | .frm => t = { u with frm := t.frm, mstatus := dirtied s }
  | .fcsr => t = { u with fflags := t.fflags, frm := t.frm, mstatus := dirtied s }
  | .jvt => t = { u with jvt := t.jvt }
  | .sstatus =>
    t = { u with mstatus := { s.mstatus with
            sie := t.mstatus.sie, spie := t.mstatus.spie, spp := t.mstatus.spp, fs := t.mstatus.fs } }
  | .stvec => t = { u with stvec := t.stvec }
  | .sscratch => t = { u with sscratch := t.sscratch }
  | .sepc => t = { u with sepc := t.sepc }
  | .scause => t = { u with scause := t.scause }
  | .stval => t = { u with stval := t.stval }
  | .mstatus => t = { u with mstatus := t.mstatus }
  | .mtvec => t = { u with mtvec := t.mtvec }
  | .mscratch => t = { u with mscratch := t.mscratch }
  | .mepc => t = { u with mepc := t.mepc }
  | .mcause => t = { u with mcause := t.mcause }
  | .mtval => t = { u with mtval := t.mtval }

/-- The outcome of a CSR instruction that passes its checks: rd receives the CSR as it was, bit by bit where the spec gives
the bit; pc moves past; if it writes, each stored bit k of the CSR becomes `new k` of the old bit, the other specified bits
stay, MODE of mtvec and stvec becomes the written one when that is 0 or 1 and one of the two otherwise, MPP becomes the
written one unless that is 10. -/
def Sys2Proof.Machine.CsrEffect (s : State) (r : Result) (c : Csr) (rd : RegIdx) (writes : Bool) (new : Nat → Bool → Bool) :
    Prop :=
  ∃ t, r = .next t
    ∧ (∀ q, q ≠ rd → t.getX q = s.getX q)
    ∧ (rd ≠ 0#5 → ∀ k < s.cfg.xlen.bits, ∀ b, csrBit s c k = some b → (t.getX rd).getLsbD k = b)
    ∧ t.pc = wrap s (s.pc.toNat + 4)
    ∧ SameMemory s t
    ∧ (writes = false → t = { s with x := t.x, pc := t.pc, draws := t.draws })
    ∧ (writes = true →
        OnlyCsrChanged s t c
        ∧ (∀ k < s.cfg.xlen.bits, ∀ b, csrBit s c k = some b → csrSpecial s.cfg c k = false →
            csrBit t c k = some (if csrStores s.cfg c k then new k b else b))
        ∧ (c = .mtvec ∨ c = .stvec → ∀ b₀ b₁, csrBit s c 0 = some b₀ → csrBit s c 1 = some b₁ →
            csrBit t c 1 = some false ∧ (new 1 b₁ = false → csrBit t c 0 = some (new 0 b₀)))
        ∧ (c = .mstatus → ∀ b₀ b₁, csrBit s c 11 = some b₀ → csrBit s c 12 = some b₁ → (new 11 b₀ || !new 12 b₁) = true →
            csrBit t c 11 = some (new 11 b₀) ∧ csrBit t c 12 = some (new 12 b₁)))

/-- The access is one the mode, the parameters and FS allow (60_exceptions.md R622): the address names a modelled CSR whose
unit is present, bits 9:8 are no higher than the mode, and the floating-point unit is on for the views of fcsr. -/
abbrev Sys2Proof.Machine.CsrAllowed (s : State) (addr : CsrAddr) (c : Csr) : Prop :=
  csrOf addr = some c ∧ c.present s.cfg.ext = true ∧ addr.toNat / 256 % 4 ≤ (Priv.code s.priv).toNat ∧ (c.isFp = true → FpOn s)

/-- The sixteen modelled CSRs and their addresses (10_state.md R33). -/
def Sys2Proof.Machine.csrTable : List (Nat × Csr) :=
  [(0x001, .fflags), (0x002, .frm), (0x003, .fcsr), (0x017, .jvt), (0x100, .sstatus), (0x105, .stvec), (0x140, .sscratch),
   (0x141, .sepc), (0x142, .scause), (0x143, .stval), (0x300, .mstatus), (0x305, .mtvec), (0x340, .mscratch), (0x341, .mepc),
   (0x342, .mcause), (0x343, .mtval)]

/-- 40_base_compute_system.md R173 to R178, 10_state.md R31 to R38: the six CSR instructions complete on every modelled CSR
the mode may access: the old value to rd, the written, set or cleared value into the writable fields. csrrs, csrrc and their
immediate forms write unless their operand field is 0. Where the spec leaves a value open (unmodelled bits, MODE 2 or 3, MPP
10) nothing is said of it (log 5). The address names the CSR that the table of R33 gives it, and no other address names one. -/
def Obligations.CsrInstructionsComplete : Prop :=
  (∀ (addr : CsrAddr) (c : Csr), csrOf addr = some c ↔ (addr.toNat, c) ∈ csrTable)
  ∧ (∀ row ∈ ([
      (.csrrw, true, fun _ v => v),
      (.csrrs, false, fun old v => old || v),
      (.csrrc, false, fun old v => old && !v)] :
      List ((RegIdx → RegIdx → CsrAddr → Instr) × Bool × (Bool → Bool → Bool))),
    ∀ (rd rs1 : RegIdx) (addr : CsrAddr) (c : Csr) (s : State), CsrAllowed s addr c →
      CsrEffect s (exec (row.1 rd rs1 addr) s) c rd (row.2.1 || rs1 != 0#5) (fun k b => row.2.2 b ((s.getX rs1).getLsbD k)))
  ∧ (∀ row ∈ ([
      (.csrrwi, true, fun _ v => v),
      (.csrrsi, false, fun old v => old || v),
      (.csrrci, false, fun old v => old && !v)] :
      List ((RegIdx → CsrAddr → BitVec 5 → Instr) × Bool × (Bool → Bool → Bool))),
    ∀ (rd : RegIdx) (uimm : BitVec 5) (addr : CsrAddr) (c : Csr) (s : State), CsrAllowed s addr c →
      CsrEffect s (exec (row.1 rd addr uimm) s) c rd (row.2.1 || uimm != 0#5) (fun k b => row.2.2 b (uimm.getLsbD k)))

/-- 60_exceptions.md R622: where a CSR instruction does not complete, for each of the six with its own bits as trap value: too
low a mode; a write of a read-only address; a modelled CSR whose unit is absent; a view of fcsr while the floating-point unit
is off. An address the spec does not model is refused by its number, after the first two checks. -/
def Obligations.CsrInstructionsStop : Prop :=
  ∀ (rd rs1 : RegIdx) (uimm : BitVec 5) (addr : CsrAddr) (s : State),
    ∀ row ∈ ([
        (.csrrw rd rs1 addr, true), (.csrrs rd rs1 addr, rs1 != 0#5), (.csrrc rd rs1 addr, rs1 != 0#5),
        (.csrrwi rd addr uimm, true), (.csrrsi rd addr uimm, uimm != 0#5), (.csrrci rd addr uimm, uimm != 0#5)] :
        List (Instr × Bool)),
      let below := (Priv.code s.priv).toNat < addr.toNat / 256 % 4
      let readOnlyWrite := addr.toNat / 1024 = 3 ∧ row.2 = true
      (below ∨ readOnlyWrite → Traps s (exec row.1 s) .illegalInstruction row.1.bits)
      ∧ (¬below → ¬readOnlyWrite → csrOf addr = none → exec row.1 s = .refused (.unmodelledCsr addr))
      ∧ (∀ c, ¬below → csrOf addr = some c → c.present s.cfg.ext = false ∨ (c.isFp = true ∧ ¬FpOn s) →
          Traps s (exec row.1 s) .illegalInstruction row.1.bits)

/-! Atomic instructions. -/

/-- 43_a_atomic.md R250, R251, R254, R265: an aligned, mapped load-reserved of a number v in memory writes v, sign-extended,
to rd and sets the reservation to its address and size. Nothing else but pc changes. -/
def Obligations.LoadReservedCompletes : Prop :=
  ∀ row ∈ ([(.lrW, 4), (.lrD, 8)] : List ((RegIdx → RegIdx → BitVec 1 → BitVec 1 → Instr) × Nat)),
    ∀ (rd rs1 : RegIdx) (aq rl : BitVec 1) (s : State) (v : Nat),
      let addr := s.getX rs1
      addr.toNat % row.2 = 0 → Mapped s .load addr row.2 → Holds s addr row.2 v →
      ∃ t, exec (row.1 rd rs1 aq rl) s = .next t
        ∧ (∀ q, t.getX q = if q = rd ∧ rd ≠ 0#5 then wrap s (signed (8 * row.2) v) else s.getX q)
        ∧ t.reservation = some ⟨addr, row.2⟩
        ∧ t.pc = wrap s (s.pc.toNat + 4)
        ∧ SameMemory s t
        ∧ t = { s with x := t.x, pc := t.pc, reservation := t.reservation }

/-- 43_a_atomic.md R250, R251, R255, R266, 20_memory.md R81: an aligned, mapped store-conditional either stores the low bytes
of rs2 and writes 0 to rd, or stores nothing and writes 1; it succeeds when the reservation is its own address and size,
unless the parameter SC_MAY_FAIL_SPURIOUSLY lets it fail; either way no reservation is left. Nothing else but pc, the
fetch-coherence set and the count of free values changes. -/
def Obligations.StoreConditionalCompletes : Prop :=
  ∀ row ∈ ([(.scW, 4), (.scD, 8)] : List ((RegIdx → RegIdx → RegIdx → BitVec 1 → BitVec 1 → Instr) × Nat)),
    ∀ (rd rs1 rs2 : RegIdx) (aq rl : BitVec 1) (s : State),
      let addr := s.getX rs1
      let succeeds (t : State) : Prop :=
        (∀ q, t.getX q = if q = rd ∧ rd ≠ 0#5 then 0#64 else s.getX q) ∧ Stored s t addr row.2 (uval s rs2)
      let fails (t : State) : Prop :=
        (∀ q, t.getX q = if q = rd ∧ rd ≠ 0#5 then 1#64 else s.getX q) ∧ SameMemory s t ∧ t.stale = s.stale
      addr.toNat % row.2 = 0 → Mapped s .atomic addr row.2 →
      ∃ t, exec (row.1 rd rs1 rs2 aq rl) s = .next t
        ∧ (s.reservation = some ⟨addr, row.2⟩ → s.cfg.scMayFailSpuriously = false → succeeds t)
        ∧ (s.reservation = some ⟨addr, row.2⟩ → succeeds t ∨ fails t)
        ∧ (s.reservation ≠ some ⟨addr, row.2⟩ → fails t)
        ∧ t.reservation = none
        ∧ t.pc = wrap s (s.pc.toNat + 4)
        ∧ t = { s with x := t.x, pc := t.pc, mem := t.mem, stale := t.stale, reservation := none, draws := t.draws }

/-- 43_a_atomic.md R250, R252, R256 to R264, R267 to R275: an aligned, mapped atomic operation on a number a in memory and the
low bytes b of rs2 stores the result at the address and writes a, sign-extended, to rd. Nothing else but pc and the
fetch-coherence set changes. -/
def Obligations.AtomicOperationsComplete : Prop :=
  ∀ row ∈ ([
      (.amoswapW, 4, fun _ _ b => b),
      (.amoaddW, 4, fun _ a b => a + b),
      (.amoxorW, 4, fun _ a b => a ^^^ b),
      (.amoandW, 4, fun _ a b => a &&& b),
      (.amoorW, 4, fun _ a b => a ||| b),
      (.amominW, 4, fun n a b => if signed n a < signed n b then a else b),
      (.amomaxW, 4, fun n a b => if signed n a < signed n b then b else a),
      (.amominuW, 4, fun _ a b => min a b),
      (.amomaxuW, 4, fun _ a b => max a b),
      (.amoswapD, 8, fun _ _ b => b),
      (.amoaddD, 8, fun _ a b => a + b),
      (.amoxorD, 8, fun _ a b => a ^^^ b),
      (.amoandD, 8, fun _ a b => a &&& b),
      (.amoorD, 8, fun _ a b => a ||| b),
      (.amominD, 8, fun n a b => if signed n a < signed n b then a else b),
      (.amomaxD, 8, fun n a b => if signed n a < signed n b then b else a),
      (.amominuD, 8, fun _ a b => min a b),
      (.amomaxuD, 8, fun _ a b => max a b)] :
      List ((RegIdx → RegIdx → RegIdx → BitVec 1 → BitVec 1 → Instr) × Nat × (Nat → Nat → Nat → Nat))),
    ∀ (rd rs1 rs2 : RegIdx) (aq rl : BitVec 1) (s : State) (a : Nat),
      let addr := s.getX rs1
      let w := row.2.1
      addr.toNat % w = 0 → Mapped s .atomic addr w → Holds s addr w a →
      ∃ t, exec (row.1 rd rs1 rs2 aq rl) s = .next t
        ∧ (∀ q, t.getX q = if q = rd ∧ rd ≠ 0#5 then wrap s (signed (8 * w) a) else s.getX q)
        ∧ Stored s t addr w (row.2.2 (8 * w) a (uval s rs2 % 256 ^ w))
        ∧ t.pc = wrap s (s.pc.toNat + 4)
        ∧ t = { s with x := t.x, pc := t.pc, mem := t.mem, stale := t.stale }

/-- 43_a_atomic.md R253: aq and rl have no effect: every combination decodes, on each XLEN that has the instruction, to the same
instruction but for the two bits, and behaves as the combination with both clear. Rows give the width in bytes: the .w forms
are of both XLEN, the .d forms of RV64. -/
def Obligations.OrderingBitsHaveNoEffect : Prop :=
  (∀ row ∈ ([(.lrW, 4), (.lrD, 8)] : List ((RegIdx → RegIdx → BitVec 1 → BitVec 1 → Instr) × Nat)),
    ∀ (rd rs1 : RegIdx) (aq rl : BitVec 1),
      (∀ s : State, exec (row.1 rd rs1 aq rl) s = exec (row.1 rd rs1 0#1 0#1) s)
      ∧ (∀ (xlen : Xlen) (ext : Ext), row.2 ≤ xlen.bytes → ext.a = true →
          decode xlen ext (row.1 rd rs1 aq rl).encode = some (row.1 rd rs1 aq rl)))
  ∧ (∀ row ∈ ([(.scW, 4), (.amoswapW, 4), (.amoaddW, 4), (.amoxorW, 4), (.amoandW, 4), (.amoorW, 4), (.amominW, 4), (.amomaxW, 4),
        (.amominuW, 4), (.amomaxuW, 4), (.scD, 8), (.amoswapD, 8), (.amoaddD, 8), (.amoxorD, 8), (.amoandD, 8), (.amoorD, 8),
        (.amominD, 8), (.amomaxD, 8), (.amominuD, 8), (.amomaxuD, 8)] :
      List ((RegIdx → RegIdx → RegIdx → BitVec 1 → BitVec 1 → Instr) × Nat)),
    ∀ (rd rs1 rs2 : RegIdx) (aq rl : BitVec 1),
      (∀ s : State, exec (row.1 rd rs1 rs2 aq rl) s = exec (row.1 rd rs1 rs2 0#1 0#1) s)
      ∧ (∀ (xlen : Xlen) (ext : Ext), row.2 ≤ xlen.bytes → ext.a = true →
          decode xlen ext (row.1 rd rs1 rs2 aq rl).encode = some (row.1 rd rs1 rs2 aq rl)))

/-! Floating point. -/

/-- 44_f_single.md R301 to R305, R312 to R320, 45_d_double.md R351 to R359 and their like in 48_zfh_half_precision.md: with
the unit on and an effective rounding mode, the arithmetic instructions write the boxed result of the format's numeric
function on their unboxed operands to rd and OR its flags into fflags. fsub adds the operand of opposite sign, the fused forms
flip signs before the one fused operation. Nothing else but FS and pc changes. The numeric functions have statements of their
own. -/
def Obligations.FloatArithmeticCompletes : Prop :=
  (∀ row ∈ ([
      (.faddH, .H, fpAdd), (.fsubH, .H, fun f m a b => fpAdd f m a (negFloat f b)), (.fmulH, .H, fpMul), (.fdivH, .H, fpDiv),
      (.faddS, .S, fpAdd), (.fsubS, .S, fun f m a b => fpAdd f m a (negFloat f b)), (.fmulS, .S, fpMul), (.fdivS, .S, fpDiv),
      (.faddD, .D, fpAdd), (.fsubD, .D, fun f m a b => fpAdd f m a (negFloat f b)), (.fmulD, .D, fpMul), (.fdivD, .D, fpDiv)] :
      List ((RegIdx → RegIdx → RegIdx → BitVec 3 → Instr) × FloatFormat ×
        (FloatFormat → RoundingMode → Word → Word → Word × FpFlags))),
    ∀ (rd rs1 rs2 : RegIdx) (rm : BitVec 3) (mode : RoundingMode) (s : State), FpOn s → s.effectiveRm rm = some mode →
      let r := row.2.2 row.2.1 mode (s.operand row.2.1 rs1) (s.operand row.2.1 rs2)
      WritesF s (exec (row.1 rd rs1 rs2 rm) s) 4 rd (box s.cfg.ext row.2.1 r.1) r.2)
  ∧ (∀ row ∈ ([(.fsqrtH, .H), (.fsqrtS, .S), (.fsqrtD, .D)] : List ((RegIdx → RegIdx → BitVec 3 → Instr) × FloatFormat)),
    ∀ (rd rs1 : RegIdx) (rm : BitVec 3) (mode : RoundingMode) (s : State), FpOn s → s.effectiveRm rm = some mode →
      let r := fpSqrt row.2 mode (s.operand row.2 rs1)
      WritesF s (exec (row.1 rd rs1 rm) s) 4 rd (box s.cfg.ext row.2 r.1) r.2)
  ∧ (∀ row ∈ ([
      (.fmaddH, .H, fun f m a b c => fpFma f m a b c), (.fmsubH, .H, fun f m a b c => fpFma f m a b (negFloat f c)),
      (.fnmsubH, .H, fun f m a b c => fpFma f m (negFloat f a) b c),
      (.fnmaddH, .H, fun f m a b c => fpFma f m (negFloat f a) b (negFloat f c)),
      (.fmaddS, .S, fun f m a b c => fpFma f m a b c), (.fmsubS, .S, fun f m a b c => fpFma f m a b (negFloat f c)),
      (.fnmsubS, .S, fun f m a b c => fpFma f m (negFloat f a) b c),
      (.fnmaddS, .S, fun f m a b c => fpFma f m (negFloat f a) b (negFloat f c)),
      (.fmaddD, .D, fun f m a b c => fpFma f m a b c), (.fmsubD, .D, fun f m a b c => fpFma f m a b (negFloat f c)),
      (.fnmsubD, .D, fun f m a b c => fpFma f m (negFloat f a) b c),
      (.fnmaddD, .D, fun f m a b c => fpFma f m (negFloat f a) b (negFloat f c))] :
      List ((RegIdx → RegIdx → RegIdx → RegIdx → BitVec 3 → Instr) × FloatFormat ×
        (FloatFormat → RoundingMode → Word → Word → Word → Word × FpFlags))),
    ∀ (rd rs1 rs2 rs3 : RegIdx) (rm : BitVec 3) (mode : RoundingMode) (s : State), FpOn s → s.effectiveRm rm = some mode →
      let r := row.2.2 row.2.1 mode (s.operand row.2.1 rs1) (s.operand row.2.1 rs2) (s.operand row.2.1 rs3)
      WritesF s (exec (row.1 rd rs1 rs2 rs3 rm) s) 4 rd (box s.cfg.ext row.2.1 r.1) r.2)

/-- 44_f_single.md R306, R309, R311, R321 to R325, R329 to R331 and their like for D and H: sign injection gives the bits of
rs1 under a sign made from both signs and sets no flag; min and max write a floating-point register, the comparisons the
integer 1 or 0, each with the flags of its numeric function. Nothing else but FS and pc changes. -/
def Obligations.FloatSelectAndCompareComplete : Prop :=
  (∀ row ∈ ([
      (.fsgnjH, .H, fun _ b => b), (.fsgnjnH, .H, fun _ b => !b), (.fsgnjxH, .H, fun a b => a != b),
      (.fsgnjS, .S, fun _ b => b), (.fsgnjnS, .S, fun _ b => !b), (.fsgnjxS, .S, fun a b => a != b),
      (.fsgnjD, .D, fun _ b => b), (.fsgnjnD, .D, fun _ b => !b), (.fsgnjxD, .D, fun a b => a != b)] :
      List ((RegIdx → RegIdx → RegIdx → Instr) × FloatFormat × (Bool → Bool → Bool))),
    ∀ (rd rs1 rs2 : RegIdx) (s : State), FpOn s →
      let f := row.2.1
      let a := s.operand f rs1
      let sign := row.2.2 (negative f a) (negative f (s.operand f rs2))
      WritesF s (exec (row.1 rd rs1 rs2) s) 4 rd
        (box s.cfg.ext f (BitVec.ofNat 64 (a.toNat % 2 ^ (f.width - 1) + (if sign then 2 ^ (f.width - 1) else 0)))) 0#5)
  ∧ (∀ row ∈ ([(.fminH, .H, fpMin), (.fmaxH, .H, fpMax), (.fminS, .S, fpMin), (.fmaxS, .S, fpMax), (.fminD, .D, fpMin),
        (.fmaxD, .D, fpMax)] :
      List ((RegIdx → RegIdx → RegIdx → Instr) × FloatFormat × (FloatFormat → Word → Word → Word × FpFlags))),
    ∀ (rd rs1 rs2 : RegIdx) (s : State), FpOn s →
      let r := row.2.2 row.2.1 (s.operand row.2.1 rs1) (s.operand row.2.1 rs2)
      WritesF s (exec (row.1 rd rs1 rs2) s) 4 rd (box s.cfg.ext row.2.1 r.1) r.2)
  ∧ (∀ row ∈ ([(.feqH, .H, .eq), (.fltH, .H, .lt), (.fleH, .H, .le), (.feqS, .S, .eq), (.fltS, .S, .lt), (.fleS, .S, .le),
        (.feqD, .D, .eq), (.fltD, .D, .lt), (.fleD, .D, .le)] :
      List ((RegIdx → RegIdx → RegIdx → Instr) × FloatFormat × FpRelation)),
    ∀ (rd rs1 rs2 : RegIdx) (s : State), FpOn s →
      let r := fpCompare row.2.1 s.cfg.fltFleQnanInvalid row.2.2 (s.operand row.2.1 rs1) (s.operand row.2.1 rs2)
      WritesXAndFlags s (exec (row.1 rd rs1 rs2) s) rd (wrap s (truth r.1)) r.2)

/-- 44_f_single.md R310: fclass sets in rd the one bit whose number the class of the operand has: 0 -infinity, 1 negative
normal, 2 negative subnormal, 3 -0, 4 +0, 5 positive subnormal, 6 positive normal, 7 +infinity, 8 signaling NaN, 9 quiet NaN,
a NaN's sign ignored; the same for the three formats. Nothing else but pc changes. -/
def Obligations.ClassifyByTable : Prop :=
  ∀ row ∈ ([(.fclassH, .H), (.fclassS, .S), (.fclassD, .D)] : List ((RegIdx → RegIdx → Instr) × FloatFormat)),
    ∀ (rd rs1 : RegIdx) (s : State), FpOn s →
      let f := row.2
      let a := s.operand f rs1
      let neg := negative f a
      let e := expField f a
      let top := 2 ^ f.expBits - 1
      let m := fracField f a
      ∀ bit : Nat,
        ((bit = 0 ∧ e = top ∧ m = 0 ∧ neg = true)
          ∨ (bit = 1 ∧ e ≠ top ∧ e ≠ 0 ∧ neg = true)
          ∨ (bit = 2 ∧ e = 0 ∧ m ≠ 0 ∧ neg = true)
          ∨ (bit = 3 ∧ e = 0 ∧ m = 0 ∧ neg = true)
          ∨ (bit = 4 ∧ e = 0 ∧ m = 0 ∧ neg = false)
          ∨ (bit = 5 ∧ e = 0 ∧ m ≠ 0 ∧ neg = false)
          ∨ (bit = 6 ∧ e ≠ top ∧ e ≠ 0 ∧ neg = false)
          ∨ (bit = 7 ∧ e = top ∧ m = 0 ∧ neg = false)
          ∨ (bit = 8 ∧ e = top ∧ m ≠ 0 ∧ m < 2 ^ (f.fracBits - 1))
          ∨ (bit = 9 ∧ e = top ∧ 2 ^ (f.fracBits - 1) ≤ m)) →
        WritesX s (exec (row.1 rd rs1) s) 4 rd (BitVec.ofNat 64 (2 ^ bit))

/-- 44_f_single.md R307, R308, R326, R327, R333, R334, R338 to R341 and their like for D and H: with the unit on and an
effective rounding mode, a conversion to an integer writes it to rd sign-extended from its 32 or 64 bits, a conversion from an
integer or between formats writes the boxed result, each with the flags of its numeric function. Nothing else but FS and pc
changes. -/
def Obligations.FloatConversionsComplete : Prop :=
  (∀ row ∈ ([
      (.fcvtWH, .H, 32, true), (.fcvtWuH, .H, 32, false), (.fcvtLH, .H, 64, true), (.fcvtLuH, .H, 64, false),
      (.fcvtWS, .S, 32, true), (.fcvtWuS, .S, 32, false), (.fcvtLS, .S, 64, true), (.fcvtLuS, .S, 64, false),
      (.fcvtWD, .D, 32, true), (.fcvtWuD, .D, 32, false), (.fcvtLD, .D, 64, true), (.fcvtLuD, .D, 64, false)] :
      List ((RegIdx → RegIdx → BitVec 3 → Instr) × FloatFormat × Nat × Bool)),
    ∀ (rd rs1 : RegIdx) (rm : BitVec 3) (mode : RoundingMode) (s : State), FpOn s → s.effectiveRm rm = some mode →
      let n := row.2.2.1
      let r := fpToInt row.2.1 mode (s.operand row.2.1 rs1) n row.2.2.2
      WritesXAndFlags s (exec (row.1 rd rs1 rm) s) rd (wrap s (Int.bmod r.1 (2 ^ n))) r.2)
  ∧ (∀ row ∈ ([
      (.fcvtHW, .H, fun a => signed 32 a), (.fcvtHWu, .H, fun a => (a % 2 ^ 32 : Nat)),
      (.fcvtHL, .H, fun a => signed 64 a), (.fcvtHLu, .H, fun a => (a : Nat)),
      (.fcvtSW, .S, fun a => signed 32 a), (.fcvtSWu, .S, fun a => (a % 2 ^ 32 : Nat)),
      (.fcvtSL, .S, fun a => signed 64 a), (.fcvtSLu, .S, fun a => (a : Nat)),
      (.fcvtDW, .D, fun a => signed 32 a), (.fcvtDWu, .D, fun a => (a % 2 ^ 32 : Nat)),
      (.fcvtDL, .D, fun a => signed 64 a), (.fcvtDLu, .D, fun a => (a : Nat))] :
      List ((RegIdx → RegIdx → BitVec 3 → Instr) × FloatFormat × (Nat → Int))),
    ∀ (rd rs1 : RegIdx) (rm : BitVec 3) (mode : RoundingMode) (s : State), FpOn s → s.effectiveRm rm = some mode →
      let r := intToFp row.2.1 mode (row.2.2 (uval s rs1))
      WritesF s (exec (row.1 rd rs1 rm) s) 4 rd (box s.cfg.ext row.2.1 r.1) r.2)
  ∧ (∀ row ∈ ([(.fcvtSD, .D, .S), (.fcvtDS, .S, .D), (.fcvtSH, .H, .S), (.fcvtHS, .S, .H), (.fcvtDH, .H, .D), (.fcvtHD, .D, .H)] :
      List ((RegIdx → RegIdx → BitVec 3 → Instr) × FloatFormat × FloatFormat)),
    ∀ (rd rs1 : RegIdx) (rm : BitVec 3) (mode : RoundingMode) (s : State), FpOn s → s.effectiveRm rm = some mode →
      let r := fpConvert row.2.1 row.2.2 mode (s.operand row.2.1 rs1)
      WritesF s (exec (row.1 rd rs1 rm) s) 4 rd (box s.cfg.ext row.2.2 r.1) r.2)

/-- 44_f_single.md R301, R311, R328, R335 to R337 and their like for D and H, 46_c_compressed.md R396, R398, R400, R402, R424,
R426, R433, R435: with the unit on, the moves between the register files copy bits (to an integer register the low bits,
sign-extended, without the box check; to a floating-point register boxed), a floating-point load of a number v boxes it into
rd, a floating-point store writes the low bits of the register as they are. No flag is set; a store and a move to an integer
register leave FS as it is. -/
def Obligations.FloatMovesLoadsAndStoresComplete : Prop :=
  (∀ (rd rs1 : RegIdx) (s : State), FpOn s →
    WritesX s (exec (.fmvXH rd rs1) s) 4 rd (wrap s (signed 16 (s.getF rs1).toNat))
    ∧ WritesX s (exec (.fmvXW rd rs1) s) 4 rd (wrap s (signed 32 (s.getF rs1).toNat))
    ∧ WritesX s (exec (.fmvXD rd rs1) s) 4 rd (wrap s (s.getF rs1).toNat)
    ∧ WritesF s (exec (.fmvHX rd rs1) s) 4 rd (box s.cfg.ext .H (s.getX rs1)) 0#5
    ∧ WritesF s (exec (.fmvWX rd rs1) s) 4 rd (box s.cfg.ext .S (s.getX rs1)) 0#5
    ∧ WritesF s (exec (.fmvDX rd rs1) s) 4 rd (box s.cfg.ext .D (s.getX rs1)) 0#5)
  ∧ (∀ row ∈ ([(.flh, .H, 2), (.flw, .S, 4), (.fld, .D, 8)] : List ((RegIdx → RegIdx → BitVec 12 → Instr) × FloatFormat × Nat)),
    ∀ (rd rs1 : RegIdx) (imm : BitVec 12) (s : State) (v : Nat), FpOn s →
      let addr := immAddr s rs1 imm
      AlignedOrEmulated s addr row.2.2 → Mapped s .load addr row.2.2 → Holds s addr row.2.2 v →
      WritesF s (exec (row.1 rd rs1 imm) s) 4 rd (box s.cfg.ext row.2.1 (BitVec.ofNat 64 v)) 0#5)
  ∧ (∀ row ∈ ([(.fsh, 2), (.fsw, 4), (.fsd, 8)] : List ((RegIdx → RegIdx → BitVec 12 → Instr) × Nat)),
    ∀ (rs1 rs2 : RegIdx) (imm : BitVec 12) (s : State), FpOn s →
      let addr := immAddr s rs1 imm
      AlignedOrEmulated s addr row.2 → Mapped s .store addr row.2 →
      StoresBytes s (exec (row.1 rs1 rs2 imm) s) 4 addr row.2 (s.getF rs2).toNat)
  ∧ (∀ (rd rs1 : CRegIdx) (uimm : BitVec 5) (s : State) (v : Nat), FpOn s →
      (let addr := offAddr s (creg rs1) (uimm ++ 0#2)
       (AlignedOrEmulated s addr 4 → Mapped s .load addr 4 → Holds s addr 4 v →
         WritesF s (exec (.cFlw rd rs1 uimm) s) 2 (creg rd) (box s.cfg.ext .S (BitVec.ofNat 64 v)) 0#5)
       ∧ (AlignedOrEmulated s addr 4 → Mapped s .store addr 4 →
         StoresBytes s (exec (.cFsw rs1 rd uimm) s) 2 addr 4 (s.getF (creg rd)).toNat))
      ∧ (let addr := offAddr s (creg rs1) (uimm ++ 0#3)
         (AlignedOrEmulated s addr 8 → Mapped s .load addr 8 → Holds s addr 8 v →
           WritesF s (exec (.cFld rd rs1 uimm) s) 2 (creg rd) (box s.cfg.ext .D (BitVec.ofNat 64 v)) 0#5)
         ∧ (AlignedOrEmulated s addr 8 → Mapped s .store addr 8 →
           StoresBytes s (exec (.cFsd rs1 rd uimm) s) 2 addr 8 (s.getF (creg rd)).toNat)))
  ∧ (∀ (rd : RegIdx) (uimm : BitVec 6) (s : State) (v : Nat), FpOn s →
      (let addr := offAddr s 2#5 (uimm ++ 0#2)
       (AlignedOrEmulated s addr 4 → Mapped s .load addr 4 → Holds s addr 4 v →
         WritesF s (exec (.cFlwsp rd uimm) s) 2 rd (box s.cfg.ext .S (BitVec.ofNat 64 v)) 0#5)
       ∧ (AlignedOrEmulated s addr 4 → Mapped s .store addr 4 →
         StoresBytes s (exec (.cFswsp rd uimm) s) 2 addr 4 (s.getF rd).toNat))
      ∧ (let addr := offAddr s 2#5 (uimm ++ 0#3)
         (AlignedOrEmulated s addr 8 → Mapped s .load addr 8 → Holds s addr 8 v →
           WritesF s (exec (.cFldsp rd uimm) s) 2 rd (box s.cfg.ext .D (BitVec.ofNat 64 v)) 0#5)
         ∧ (AlignedOrEmulated s addr 8 → Mapped s .store addr 8 →
           StoresBytes s (exec (.cFsdsp rd uimm) s) 2 addr 8 (s.getF rd).toNat)))

/-- 10_state.md R34, 44_f_single.md R302, 48_zfh_half_precision.md R519, R520, 60_exceptions.md R603 (b), (c): where a
floating-point instruction is illegal, with its own bits as trap value: every one of them while the unit is off; one that
rounds when its rm field is 101 or 110, or 111 while frm names no mode; the two recorded conversions with quad precision
always, their one effect in this spec. -/
def Obligations.FloatInstructionsIllegal : Prop :=
  (∀ (i : Instr) (s : State), i.availability.needs.any (fun u => u == .F || u == .D || u == .Zfh) = true → ¬FpOn s →
    Traps s (exec i s) .illegalInstruction i.bits)
  ∧ (∀ (rm : BitVec 3) (s : State), (rm = 0b101#3 ∨ rm = 0b110#3 ∨ (rm = 0b111#3 ∧ 5 ≤ s.frm.toNat)) →
      (∀ row ∈ ([.faddH, .fsubH, .fmulH, .fdivH, .faddS, .fsubS, .fmulS, .fdivS, .faddD, .fsubD, .fmulD, .fdivD] :
          List (RegIdx → RegIdx → RegIdx → BitVec 3 → Instr)),
        ∀ rd rs1 rs2 : RegIdx, Traps s (exec (row rd rs1 rs2 rm) s) .illegalInstruction (row rd rs1 rs2 rm).bits)
      ∧ (∀ row ∈ ([.fsqrtH, .fsqrtS, .fsqrtD, .fcvtWH, .fcvtWuH, .fcvtLH, .fcvtLuH, .fcvtWS, .fcvtWuS, .fcvtLS, .fcvtLuS, .fcvtWD,
            .fcvtWuD, .fcvtLD, .fcvtLuD, .fcvtHW, .fcvtHWu, .fcvtHL, .fcvtHLu, .fcvtSW, .fcvtSWu, .fcvtSL, .fcvtSLu, .fcvtDW,
            .fcvtDWu, .fcvtDL, .fcvtDLu, .fcvtSD, .fcvtDS, .fcvtSH, .fcvtHS, .fcvtDH, .fcvtHD] :
          List (RegIdx → RegIdx → BitVec 3 → Instr)),
        ∀ rd rs1 : RegIdx, Traps s (exec (row rd rs1 rm) s) .illegalInstruction (row rd rs1 rm).bits)
      ∧ (∀ row ∈ ([.fmaddH, .fmsubH, .fnmsubH, .fnmaddH, .fmaddS, .fmsubS, .fnmsubS, .fnmaddS, .fmaddD, .fmsubD, .fnmsubD,
            .fnmaddD] : List (RegIdx → RegIdx → RegIdx → RegIdx → BitVec 3 → Instr)),
        ∀ rd rs1 rs2 rs3 : RegIdx,
          Traps s (exec (row rd rs1 rs2 rs3 rm) s) .illegalInstruction (row rd rs1 rs2 rs3 rm).bits))
  ∧ (∀ (rd rs1 : RegIdx) (rm : BitVec 3) (s : State),
      Traps s (exec (.fcvtQH rd rs1 rm) s) .illegalInstruction (Instr.fcvtQH rd rs1 rm).bits
      ∧ Traps s (exec (.fcvtHQ rd rs1 rm) s) .illegalInstruction (Instr.fcvtHQ rd rs1 rm).bits)

/-- 44_f_single.md R301, 10_state.md R28, R30: boxing sets every bit above the format's width up to FLEN; unboxing gives the
low bits back when they are all set and the canonical NaN otherwise. -/
def Obligations.BoxingAndUnboxing : Prop :=
  ∀ (ext : Ext) (f : FloatFormat) (v r : Word), f.width ≤ ext.flen →
    (box ext f v).toNat = 2 ^ ext.flen - 2 ^ f.width + v.toNat % 2 ^ f.width
    ∧ unbox ext f (box ext f v) = BitVec.ofNat 64 (v.toNat % 2 ^ f.width)
    ∧ (r.toNat < 2 ^ ext.flen →
        (r.toNat / 2 ^ f.width = 2 ^ (ext.flen - f.width) - 1 → unbox ext f r = BitVec.ofNat 64 (r.toNat % 2 ^ f.width))
        ∧ (r.toNat / 2 ^ f.width ≠ 2 ^ (ext.flen - f.width) - 1 → unbox ext f r = f.nan))

/-- 44_f_single.md R304 (a), (b), (c), R305: which results are a NaN, always the canonical one, and with which flag: a NaN
operand (NV when one signals, no flag otherwise), infinity minus infinity, zero times infinity, zero by zero, infinity by
infinity, the root of a negative number, and zero times infinity in a fused operation whatever the addend. A finite number not
zero by zero is the infinity of the product of the signs, with DZ alone. -/
def Obligations.InvalidOperationsGiveTheCanonicalNan : Prop :=
  ∀ (f : FloatFormat) (m : RoundingMode) (a b c : Word),
    (∀ op ∈ [fpAdd, fpMul, fpDiv],
      (IsNan f a ∨ IsNan f b → (op f m a b).1 = f.nan)
      ∧ (IsSnan f a ∨ IsSnan f b → (op f m a b).2 = flagNV)
      ∧ (IsNan f a ∨ IsNan f b → ¬IsSnan f a → ¬IsSnan f b → (op f m a b).2 = 0#5))
    ∧ (IsInf f a → IsInf f b → negative f a ≠ negative f b → fpAdd f m a b = (f.nan, flagNV))
    ∧ ((IsInf f a ∧ IsZero f b) ∨ (IsZero f a ∧ IsInf f b) → fpMul f m a b = (f.nan, flagNV) ∧ fpFma f m a b c = (f.nan, flagNV))
    ∧ ((IsZero f a ∧ IsZero f b) ∨ (IsInf f a ∧ IsInf f b) → fpDiv f m a b = (f.nan, flagNV))
    ∧ (IsNan f a ∨ IsNan f b →
        fpFma f m a b c = (f.nan, if IsSnan f a ∨ IsSnan f b ∨ IsSnan f c then flagNV else 0#5))
    ∧ (¬IsNan f a → ¬IsNan f b → ¬(IsInf f a ∧ IsZero f b) → ¬(IsZero f a ∧ IsInf f b) → IsNan f c →
        fpFma f m a b c = (f.nan, if IsSnan f c then flagNV else 0#5))
    ∧ (InfiniteProduct f a b → IsInf f c → productSign f a b ≠ negative f c → fpFma f m a b c = (f.nan, flagNV))
    ∧ (negative f a = true → ¬IsZero f a → ¬IsNan f a → fpSqrt f m a = (f.nan, flagNV))
    ∧ (IsNan f a → fpSqrt f m a = (f.nan, if IsSnan f a then flagNV else 0#5))
    ∧ (IsFinite f a → ¬IsZero f a → IsZero f b →
        IsInf f (fpDiv f m a b).1 ∧ negative f (fpDiv f m a b).1 = productSign f a b ∧ (fpDiv f m a b).2 = flagDZ)

/-- 44_f_single.md R302, R304, R305: the sum, the product and the fused product and sum of finite operands, when the exact
result is not zero, are that result rounded once, with the flags of one rounding. An exact zero sum, fused or not, is positive,
but negative when rounding down; a zero product has the sign of the product. An infinite operand, or an infinite product in a
fused operation, gives that infinity where the operation is valid. None of these sets a flag. Two zeros of one sign add to the
zero of that sign, as IEEE 754-2008 has it, which R304 names: the model's reading of R304 (h) (log 7). -/
def Obligations.SumsAndProductsAreRoundedOnce : Prop :=
  ∀ (f : FloatFormat) (m : RoundingMode) (a b c : Word),
    let sum := realOf f a + realOf f b
    let product := realOf f a * realOf f b
    let fused := product + realOf f c
    let p := productSign f a b
    (IsFinite f a → IsFinite f b →
      (sum ≠ 0 → RoundedOnce f m sum (fpAdd f m a b))
      ∧ (product ≠ 0 → RoundedOnce f m product (fpMul f m a b))
      ∧ (IsZero f a → IsZero f b → negative f a = negative f b → GivesZero f (negative f a) (fpAdd f m a b))
      ∧ (sum = 0 → ¬(IsZero f a ∧ IsZero f b ∧ negative f a = negative f b) → GivesZero f (decide (m = .rdn)) (fpAdd f m a b))
      ∧ (product = 0 → GivesZero f p (fpMul f m a b)))
    ∧ (IsFinite f a → IsFinite f b → IsFinite f c →
        (fused ≠ 0 → RoundedOnce f m fused (fpFma f m a b c))
        ∧ (product = 0 → IsZero f c → p = negative f c → GivesZero f p (fpFma f m a b c))
        ∧ (fused = 0 → ¬(product = 0 ∧ p = negative f c) → GivesZero f (decide (m = .rdn)) (fpFma f m a b c)))
    ∧ (IsInf f a → ¬IsNan f b → ¬(IsInf f b ∧ negative f a ≠ negative f b) →
        GivesInf f (negative f a) (fpAdd f m a b) ∧ GivesInf f (negative f a) (fpAdd f m b a))
    ∧ (InfiniteProduct f a b → GivesInf f p (fpMul f m a b))
    ∧ (InfiniteProduct f a b → ¬IsNan f c → ¬(IsInf f c ∧ p ≠ negative f c) → GivesInf f p (fpFma f m a b c))
    ∧ (IsFinite f a → IsFinite f b → IsInf f c → GivesInf f (negative f c) (fpFma f m a b c))

/-- 44_f_single.md R302, R304: the quotient of finite operands, the divisor and the quotient not zero, and the root of a
positive finite operand, are the exact result rounded once, with the flags of one rounding. A zero by a finite number not zero,
and a finite number by an infinity, are the zero of the product of the signs; an infinity by a finite number, zero among them,
is the infinity of that sign; the root of a zero is that zero, the root of +infinity is +infinity. None of these sets a flag. -/
def Obligations.QuotientsAndRootsAreRoundedOnce : Prop :=
  ∀ (f : FloatFormat) (m : RoundingMode) (a b : Word),
    let p := productSign f a b
    (IsFinite f a → IsFinite f b → ¬IsZero f a → ¬IsZero f b → RoundedOnce f m (realOf f a / realOf f b) (fpDiv f m a b))
    ∧ (IsZero f a → IsFinite f b → ¬IsZero f b → GivesZero f p (fpDiv f m a b))
    ∧ (IsFinite f a → IsInf f b → GivesZero f p (fpDiv f m a b))
    ∧ (IsInf f a → IsFinite f b → GivesInf f p (fpDiv f m a b))
    ∧ (IsFinite f a → 0 < realOf f a → RoundedOnce f m (Real.sqrt (realOf f a)) (fpSqrt f m a))
    ∧ (IsZero f a → GivesZero f (negative f a) (fpSqrt f m a))
    ∧ (IsInf f a → negative f a = false → GivesInf f false (fpSqrt f m a))

/-- 44_f_single.md R308: an integer not zero, and a finite number not zero of another format, convert to that number rounded
once; the integer zero to +0; a NaN to the canonical NaN of the target, with NV when it signals and no flag otherwise; an
infinity or a zero to that of the target, no flag. -/
def Obligations.ConversionsToFloatAreRoundedOnce : Prop :=
  ∀ (f g : FloatFormat) (m : RoundingMode) (a : Word) (i : Int),
    (i ≠ 0 → RoundedOnce g m (i : ℝ) (intToFp g m i))
    ∧ intToFp g m 0 = (0#64, 0#5)
    ∧ (IsFinite f a → ¬IsZero f a → RoundedOnce g m (realOf f a) (fpConvert f g m a))
    ∧ (IsNan f a → fpConvert f g m a = (g.nan, if IsSnan f a then flagNV else 0#5))
    ∧ (IsInf f a → GivesInf g (negative f a) (fpConvert f g m a))
    ∧ (IsZero f a → GivesZero g (negative f a) (fpConvert f g m a))

/-- 44_f_single.md R307: a number converts to its rounding to an integer when the type holds that, with NX when it differs;
above the type to the largest value, below it to the smallest, with NV alone; NaN and +infinity to the largest, -infinity to
the smallest, with NV. -/
def Obligations.ConversionsToIntegerSaturate : Prop :=
  ∀ (f : FloatFormat) (m : RoundingMode) (a : Word), ∀ n ∈ [32, 64], ∀ isSigned : Bool,
    let least : Int := if isSigned then -2 ^ (n - 1) else 0
    let largest : Int := if isSigned then 2 ^ (n - 1) - 1 else 2 ^ n - 1
    let r := roundToInt m (realOf f a)
    (IsNan f a → fpToInt f m a n isSigned = (largest, flagNV))
    ∧ (IsInf f a → fpToInt f m a n isSigned = (if negative f a then least else largest, flagNV))
    ∧ (IsFinite f a → largest < r → fpToInt f m a n isSigned = (largest, flagNV))
    ∧ (IsFinite f a → r < least → fpToInt f m a n isSigned = (least, flagNV))
    ∧ (IsFinite f a → least ≤ r → r ≤ largest → (r : ℝ) = realOf f a → fpToInt f m a n isSigned = (r, 0#5))
    ∧ (IsFinite f a → least ≤ r → r ≤ largest → (r : ℝ) ≠ realOf f a → fpToInt f m a n isSigned = (r, flagNX))

/-- 44_f_single.md R306, R309: feq, flt and fle compare numbers (-0 equal to +0), are false on a NaN, and set NV for a
signaling NaN, and flt and fle for any NaN where FLT_FLE_QNAN_INVALID is set; min and max give the smaller and the larger
number (-0 below +0), the other operand when one is a NaN, the canonical NaN when both are, and set NV for a signaling NaN
only. No other flag is set, and none where NV is not. -/
def Obligations.OrderOfFloatingPointNumbers : Prop :=
  ∀ (f : FloatFormat) (quiet : Bool) (a b : Word), a.toNat < 2 ^ f.width → b.toNat < 2 ^ f.width →
    (IsNan f a ∨ IsNan f b → ∀ rel, (fpCompare f quiet rel a b).1 = false)
    ∧ (¬IsNan f a → ¬IsNan f b →
        ((fpCompare f quiet .eq a b).1 = true ↔ extOf f a = extOf f b)
        ∧ ((fpCompare f quiet .lt a b).1 = true ↔ extOf f a < extOf f b)
        ∧ ((fpCompare f quiet .le a b).1 = true ↔ extOf f a ≤ extOf f b)
        ∧ ∀ rel, (fpCompare f quiet rel a b).2 = 0#5)
    ∧ (∀ rel, (fpCompare f quiet rel a b).2 =
        if IsSnan f a ∨ IsSnan f b ∨ (rel ≠ .eq ∧ quiet = true ∧ (IsNan f a ∨ IsNan f b)) then flagNV else 0#5)
    ∧ (IsNan f a → IsNan f b → (fpMin f a b).1 = f.nan ∧ (fpMax f a b).1 = f.nan)
    ∧ (IsNan f a → ¬IsNan f b → (fpMin f a b).1 = b ∧ (fpMax f a b).1 = b)
    ∧ (¬IsNan f a → IsNan f b → (fpMin f a b).1 = a ∧ (fpMax f a b).1 = a)
    ∧ (¬IsNan f a → ¬IsNan f b →
        extOf f a < extOf f b ∨ (IsZero f a ∧ IsZero f b ∧ negative f a = true ∧ negative f b = false) →
        (fpMin f a b).1 = a ∧ (fpMin f b a).1 = a ∧ (fpMax f a b).1 = b ∧ (fpMax f b a).1 = b)
    ∧ (¬IsNan f a → (fpMin f a a).1 = a ∧ (fpMax f a a).1 = a)
    ∧ (fpMin f a b).2 = (if IsSnan f a ∨ IsSnan f b then flagNV else 0#5)
    ∧ (fpMax f a b).2 = (fpMin f a b).2

/-! Compressed instructions. -/

/-- 46_c_compressed.md R390, R391, R395, R405, R407 to R419, R423, R429, R432, 49_zc_code_size.md R561 to R567: the compressed
arithmetic, 2 bytes long, each with its result as an integer modulo 2^XLEN: n is XLEN, a and b the unsigned readings of the
destination and of rs2, i the sign-extended immediate. Register fields of 3 bits name x8 to x15. Nothing but rd and pc
changes. -/
def Obligations.CompressedArithmeticCompletes : Prop :=
  (∀ row ∈ ([
      (.cAddi, fun _ a i => a + i),
      (.cAddiw, fun _ a i => Int.bmod (a + i) (2 ^ 32)),
      (.cLi, fun _ _ i => i),
      (.cLui, fun _ _ i => i * 4096)] :
      List ((RegIdx → BitVec 6 → Instr) × (Nat → Nat → Int → Int))),
    ∀ (rd : RegIdx) (imm : BitVec 6) (s : State),
      WritesX s (exec (row.1 rd imm) s) 2 rd (wrap s (row.2 s.cfg.xlen.bits (uval s rd) imm.toInt)))
  ∧ (∀ row ∈ ([
      (.cSub, fun _ a b => (a : Int) - b),
      (.cXor, fun _ a b => (a ^^^ b : Nat)),
      (.cOr, fun _ a b => (a ||| b : Nat)),
      (.cAnd, fun _ a b => (a &&& b : Nat)),
      (.cSubw, fun _ a b => Int.bmod ((a : Int) - b) (2 ^ 32)),
      (.cAddw, fun _ a b => Int.bmod ((a : Int) + b) (2 ^ 32)),
      (.cMul, fun _ a b => a * b)] :
      List ((CRegIdx → CRegIdx → Instr) × (Nat → Nat → Nat → Int))),
    ∀ (rd rs2 : CRegIdx) (s : State),
      WritesX s (exec (row.1 rd rs2) s) 2 (creg rd)
        (wrap s (row.2 s.cfg.xlen.bits (uval s (creg rd)) (uval s (creg rs2)))))
  ∧ (∀ (rd : CRegIdx) (shamt imm : BitVec 6) (s : State),
      WritesX s (exec (.cAndi rd imm) s) 2 (creg rd)
        (wrap s (uval s (creg rd) &&& (imm.toInt % 2 ^ s.cfg.xlen.bits).toNat : Nat))
      ∧ (shamt.toNat < s.cfg.xlen.bits →
          WritesX s (exec (.cSrli rd shamt) s) 2 (creg rd) (wrap s (uval s (creg rd) / 2 ^ shamt.toNat : Nat))
          ∧ WritesX s (exec (.cSrai rd shamt) s) 2 (creg rd)
              (wrap s (signed s.cfg.xlen.bits (uval s (creg rd)) / 2 ^ shamt.toNat))))
  ∧ (∀ (rd rs2 : RegIdx) (crd : CRegIdx) (shamt nzimm : BitVec 6) (nzuimm : BitVec 8) (s : State),
      (shamt.toNat < s.cfg.xlen.bits → WritesX s (exec (.cSlli rd shamt) s) 2 rd (wrap s (uval s rd * 2 ^ shamt.toNat)))
      ∧ WritesX s (exec (.cMv rd rs2) s) 2 rd (s.getX rs2)
      ∧ WritesX s (exec (.cAdd rd rs2) s) 2 rd (wrap s (uval s rd + uval s rs2))
      ∧ WritesX s (exec (.cAddi16sp nzimm) s) 2 2#5 (wrap s (uval s 2#5 + nzimm.toInt * 16))
      ∧ WritesX s (exec (.cAddi4spn crd nzuimm) s) 2 (creg crd) (wrap s (uval s 2#5 + nzuimm.toNat * 4)))
  ∧ (∀ row ∈ ([
      (.cZextB, fun _ a => (a % 2 ^ 8 : Nat)),
      (.cSextB, fun _ a => signed 8 a),
      (.cZextH, fun _ a => (a % 2 ^ 16 : Nat)),
      (.cSextH, fun _ a => signed 16 a),
      (.cZextW, fun _ a => (a % 2 ^ 32 : Nat)),
      (.cNot, fun n a => 2 ^ n - 1 - (a : Int))] :
      List ((CRegIdx → Instr) × (Nat → Nat → Int))),
    ∀ (rd : CRegIdx) (s : State),
      WritesX s (exec (row.1 rd) s) 2 (creg rd) (wrap s (row.2 s.cfg.xlen.bits (uval s (creg rd)))))

/-- 49_zc_code_size.md R554, R572, R573, R603 (f): the Zcmp moves copy a0 and a1 into two different saved registers, or two
saved registers into a0 and a1, with both sources read first; the move into one register twice is illegal. -/
def Obligations.DoubleMovesComplete : Prop :=
  ∀ (r1s r2s : CRegIdx) (s : State),
    let s1 : RegIdx := BitVec.ofNat 5 (if r1s.toNat < 2 then 8 + r1s.toNat else 16 + r1s.toNat)
    let s2 : RegIdx := BitVec.ofNat 5 (if r2s.toNat < 2 then 8 + r2s.toNat else 16 + r2s.toNat)
    (r1s ≠ r2s →
      ∃ t, exec (.cmMvsa01 r1s r2s) s = .next t
        ∧ (∀ q, t.getX q = if q = s1 then s.getX 10#5 else if q = s2 then s.getX 11#5 else s.getX q)
        ∧ t.pc = wrap s (s.pc.toNat + 2) ∧ SameMemory s t ∧ t = { s with x := t.x, pc := t.pc })
    ∧ (r1s = r2s → Traps s (exec (.cmMvsa01 r1s r2s) s) .illegalInstruction (Instr.cmMvsa01 r1s r2s).bits)
    ∧ (∃ t, exec (.cmMva01s r1s r2s) s = .next t
        ∧ (∀ q, t.getX q = if q = 10#5 then s.getX s1 else if q = 11#5 then s.getX s2 else s.getX q)
        ∧ t.pc = wrap s (s.pc.toNat + 2) ∧ SameMemory s t ∧ t = { s with x := t.x, pc := t.pc })

/-- The register list of an rlist, lowest number first (49_zc_code_size.md R552). -/
def Sys2Proof.Machine.listed (rlist : BitVec 4) : List RegIdx :=
  [1#5, 8#5, 9#5, 18#5, 19#5, 20#5, 21#5, 22#5, 23#5, 24#5, 25#5, 26#5, 27#5].take
    (if rlist.toNat = 15 then 13 else rlist.toNat - 3)

/-- The stack adjustment of an rlist and an spimm, from the tables of 49_zc_code_size.md R552. -/
def Sys2Proof.Machine.adjustment (xlen : Xlen) (rlist : BitVec 4) (spimm : BitVec 2) : Nat :=
  (match xlen with
   | .rv32 => [0, 0, 0, 0, 16, 16, 16, 16, 32, 32, 32, 32, 48, 48, 48, 64][rlist.toNat]?.getD 0
   | .rv64 => [0, 0, 0, 0, 16, 16, 32, 32, 48, 48, 64, 64, 80, 80, 96, 112][rlist.toNat]?.getD 0) + spimm.toNat * 16

/-- The slot of the j-th register from the end of the list, below the address the stack pointer has while the frame does not
exist (49_zc_code_size.md R553, R568, R569). -/
def Sys2Proof.Machine.slot (s : State) (base : Word) (j : Nat) : Word :=
  effAddr s.xlen base (-BitVec.ofNat 64 (s.cfg.xlen.bytes * (j + 1)))

/-- 49_zc_code_size.md R552, R553, R568: cm.push, when every slot is mapped for writing and raises no misalignment, stores
each listed register in its slot, the last of the list highest, right below the old x2, lowers x2 by the adjustment and moves
past itself. Every byte outside the slots, and everything else but the fetch-coherence set, is as before. -/
def Obligations.PushCompletes : Prop :=
  ∀ (rlist : BitVec 4) (spimm : BitVec 2) (s : State), 4 ≤ rlist.toNat →
    let regs := (listed rlist).reverse
    let w := s.cfg.xlen.bytes
    (∀ j < regs.length, AlignedOrEmulated s (slot s (s.getX 2#5) j) w ∧ Mapped s .store (slot s (s.getX 2#5) j) w) →
    ∃ t, exec (.cmPush rlist spimm) s = .next t
      ∧ (∀ q, t.getX q = if q = 2#5 then wrap s ((uval s 2#5 : Int) - adjustment s.cfg.xlen rlist spimm) else s.getX q)
      ∧ t.pc = wrap s (s.pc.toNat + 2)
      ∧ (∀ j (h : j < regs.length), ∀ k < w,
          Memory.get? t.mem (byteAddr s (slot s (s.getX 2#5) j) k) = some (BitVec.ofNat 8 (uval s regs[j] / 256 ^ k)))
      ∧ (∀ a, (∀ j < regs.length, ∀ k < w, a ≠ byteAddr s (slot s (s.getX 2#5) j) k) →
          Memory.get? t.mem a = Memory.get? s.mem a)
      ∧ (∀ a, a ∈ t.stale ↔ a ∈ s.stale ∨ ∃ j < regs.length, ∃ k < w, a = byteAddr s (slot s (s.getX 2#5) j) k)
      ∧ t = { s with x := t.x, pc := t.pc, mem := t.mem, stale := t.stale }

/-- 49_zc_code_size.md R552, R553, R569 to R571: cm.pop, cm.popret and cm.popretz, when every slot is mapped for reading,
holds a number and raises no misalignment, load each listed register from its slot, the last of the list highest, right below
the new x2, and raise x2 by the adjustment; cm.pop moves past itself, the other two jump to the loaded x1 with bit 0 cleared,
and cm.popretz zeroes a0. Nothing else changes. -/
def Obligations.PopsComplete : Prop :=
  ∀ (rlist : BitVec 4) (spimm : BitVec 2) (s : State) (v : Nat → Nat), 4 ≤ rlist.toNat →
    let regs := (listed rlist).reverse
    let w := s.cfg.xlen.bytes
    let newSp := wrap s (uval s 2#5 + adjustment s.cfg.xlen rlist spimm)
    let addr (j : Nat) : Word := slot s newSp j
    let popped (t : State) (q : RegIdx) : Prop :=
      (∀ j (h : j < regs.length), q = regs[j] → (t.getX q).toNat = v j) ∧ (q ∉ regs → t.getX q = s.getX q)
    (∀ j < regs.length, AlignedOrEmulated s (addr j) w ∧ Mapped s .load (addr j) w ∧ Holds s (addr j) w (v j)) →
    (∃ t, exec (.cmPop rlist spimm) s = .next t
      ∧ t.getX 2#5 = newSp ∧ (∀ q, q ≠ 2#5 → popped t q)
      ∧ t.pc = wrap s (s.pc.toNat + 2) ∧ SameMemory s t ∧ t = { s with x := t.x, pc := t.pc })
    ∧ (∃ t, exec (.cmPopret rlist spimm) s = .next t
      ∧ t.getX 2#5 = newSp ∧ (∀ q, q ≠ 2#5 → popped t q)
      ∧ t.pc = BitVec.ofNat 64 (v (regs.length - 1) / 2 * 2) ∧ SameMemory s t ∧ t = { s with x := t.x, pc := t.pc })
    ∧ (∃ t, exec (.cmPopretz rlist spimm) s = .next t
      ∧ t.getX 2#5 = newSp ∧ t.getX 10#5 = 0#64 ∧ (∀ q, q ≠ 2#5 → q ≠ 10#5 → popped t q)
      ∧ t.pc = BitVec.ofNat 64 (v (regs.length - 1) / 2 * 2) ∧ SameMemory s t ∧ t = { s with x := t.x, pc := t.pc })

/-- 49_zc_code_size.md R552, R553, 70_reset_and_hazards.md R658: a push or pop whose slot j, from the end of the list, cannot be
reached, while those before it can, traps at its own pc with that slot as trap value, on the state u that the accesses before it
have left: for a push, those slots stored and joined to the fetch-coherence set; for a pop, those registers loaded. Nothing else
differs in u: x2 and a0 are as before. The first slot that cannot be reached decides; with j = 0 nothing has changed. An rlist
below 4 is illegal. -/
def Obligations.PushAndPopsTrap : Prop :=
  ∀ (rlist : BitVec 4) (spimm : BitVec 2) (s : State),
    let regs := (listed rlist).reverse
    let w := s.cfg.xlen.bytes
    let low (j : Nat) : Word := slot s (s.getX 2#5) j
    let addr (j : Nat) : Word := slot s (wrap s (uval s 2#5 + adjustment s.cfg.xlen rlist spimm)) j
    let reached (kind : AccessKind) (a : Word) : Prop := AlignedOrEmulated s a w ∧ Mapped s kind a w
    (rlist.toNat < 4 → ∀ row ∈ ([.cmPush, .cmPop, .cmPopret, .cmPopretz] : List (BitVec 4 → BitVec 2 → Instr)),
      Traps s (exec (row rlist spimm) s) .illegalInstruction (row rlist spimm).bits)
    ∧ (4 ≤ rlist.toNat → ∀ j (hj : j < regs.length),
        ((∀ i < j, reached .store (low i)) → ¬reached .store (low j) →
          ∃ u : State,
            (∀ i (hi : i < j), ∀ k < w,
              Memory.get? u.mem (byteAddr s (low i) k) = some (BitVec.ofNat 8 (uval s (regs[i]'(hi.trans hj)) / 256 ^ k)))
            ∧ (∀ a, (∀ i < j, ∀ k < w, a ≠ byteAddr s (low i) k) → Memory.get? u.mem a = Memory.get? s.mem a)
            ∧ (∀ a, a ∈ u.stale ↔ a ∈ s.stale ∨ ∃ i < j, ∃ k < w, a = byteAddr s (low i) k)
            ∧ u = { s with mem := u.mem, stale := u.stale }
            ∧ Traps u (exec (.cmPush rlist spimm) s)
                (if AlignedOrEmulated s (low j) w then .storeAccessFault else .storeAddrMisaligned) (low j))
        ∧ (∀ v : Nat → Nat, (∀ i < j, reached .load (addr i) ∧ Holds s (addr i) w (v i)) → ¬reached .load (addr j) →
            ∀ row ∈ ([.cmPop, .cmPopret, .cmPopretz] : List (BitVec 4 → BitVec 2 → Instr)),
            ∃ u : State,
              (∀ i (hi : i < j), (u.getX (regs[i]'(hi.trans hj))).toNat = v i)
              ∧ (∀ q, q ∉ regs.take j → u.getX q = s.getX q)
              ∧ u = { s with x := u.x }
              ∧ Traps u (exec (row rlist spimm) s)
                  (if AlignedOrEmulated s (addr j) w then .loadAccessFault else .loadAddrMisaligned) (addr j)))

/-- 49_zc_code_size.md R555, R574, R575, 60_exceptions.md R603 (f): cm.jt and cm.jalt, with a defined mode in jvt and a table
entry that may be fetched, is not stale and holds a number v, jump to v with bit 0 cleared; cm.jalt writes the address after
itself to x1. An undefined mode is illegal; an entry that may not be fetched raises instruction-access-fault with its own
address. -/
def Obligations.TableJumpsComplete : Prop :=
  ∀ (index : BitVec 8) (s : State) (v : Nat),
    let w := s.cfg.xlen.bytes
    let entry := wrap s (s.jvt.toNat / 64 * 64 + index.toNat * w)
    (s.jvt.toNat % 64 = 0 → Mapped s .execute entry w → (∀ k < w, byteAddr s entry k ∉ s.stale) → Holds s entry w v →
      MovesPc s (exec (.cmJt index) s) (BitVec.ofNat 64 (v / 2 * 2))
      ∧ JumpsLinking s (exec (.cmJalt index) s) 2 1#5 (BitVec.ofNat 64 (v / 2 * 2)))
    ∧ (s.jvt.toNat % 64 ≠ 0 →
        Traps s (exec (.cmJt index) s) .illegalInstruction (Instr.cmJt index).bits
        ∧ Traps s (exec (.cmJalt index) s) .illegalInstruction (Instr.cmJalt index).bits)
    ∧ (s.jvt.toNat % 64 = 0 → ¬Mapped s .execute entry w →
        Traps s (exec (.cmJt index) s) .instrAccessFault entry ∧ Traps s (exec (.cmJalt index) s) .instrAccessFault entry)

/-- 10_state.md R45, 20_memory.md R69, R79: a read of memory that no check stops and that needs a byte with no value stops the run
with `readOfUnspecified` at the first such byte: a load, a load-reserved, an atomic operation, a load of a pop after the loads
before it, the fetch of either parcel, a read of the jump table. That it also does so where rd is x0 is the model's choice
(log 4), and so is the address of the first such byte as the one the fault carries (log 18). -/
def Obligations.ReadsOfBytesWithoutAValueStop : Prop :=
  (∀ (rd rs1 : RegIdx) (cr1 cr2 : CRegIdx) (imm : BitVec 12) (u6 : BitVec 6) (u5 : BitVec 5) (u2 : BitVec 2) (u1 : BitVec 1)
      (s : State) (k : Nat),
    ∀ row ∈ ([
        (.lb rd rs1 imm, immAddr s rs1 imm, 1, false), (.lh rd rs1 imm, immAddr s rs1 imm, 2, false),
        (.lw rd rs1 imm, immAddr s rs1 imm, 4, false), (.lbu rd rs1 imm, immAddr s rs1 imm, 1, false),
        (.lhu rd rs1 imm, immAddr s rs1 imm, 2, false), (.lwu rd rs1 imm, immAddr s rs1 imm, 4, false),
        (.ld rd rs1 imm, immAddr s rs1 imm, 8, false), (.flh rd rs1 imm, immAddr s rs1 imm, 2, true),
        (.flw rd rs1 imm, immAddr s rs1 imm, 4, true), (.fld rd rs1 imm, immAddr s rs1 imm, 8, true),
        (.cLw cr2 cr1 u5, offAddr s (creg cr1) (u5 ++ 0#2), 4, false),
        (.cLd cr2 cr1 u5, offAddr s (creg cr1) (u5 ++ 0#3), 8, false),
        (.cFlw cr2 cr1 u5, offAddr s (creg cr1) (u5 ++ 0#2), 4, true),
        (.cFld cr2 cr1 u5, offAddr s (creg cr1) (u5 ++ 0#3), 8, true),
        (.cLwsp rd u6, offAddr s 2#5 (u6 ++ 0#2), 4, false), (.cLdsp rd u6, offAddr s 2#5 (u6 ++ 0#3), 8, false),
        (.cFlwsp rd u6, offAddr s 2#5 (u6 ++ 0#2), 4, true), (.cFldsp rd u6, offAddr s 2#5 (u6 ++ 0#3), 8, true),
        (.cLbu cr2 cr1 u2, offAddr s (creg cr1) u2, 1, false),
        (.cLhu cr2 cr1 u1, offAddr s (creg cr1) (u1 ++ 0#1), 2, false),
        (.cLh cr2 cr1 u1, offAddr s (creg cr1) (u1 ++ 0#1), 2, false)] :
        List (Instr × Word × Nat × Bool)),
      let addr := row.2.1
      let w := row.2.2.1
      (row.2.2.2 = true → FpOn s) → AlignedOrEmulated s addr w → Mapped s .load addr w → FirstByte s addr w (NoValue s) k →
      exec row.1 s = .fault (.readOfUnspecified (byteAddr s addr k)))
  ∧ (∀ row ∈ ([(.lrW, 4), (.lrD, 8)] : List ((RegIdx → RegIdx → BitVec 1 → BitVec 1 → Instr) × Nat)),
    ∀ (rd rs1 : RegIdx) (aq rl : BitVec 1) (s : State) (k : Nat),
      let addr := s.getX rs1
      addr.toNat % row.2 = 0 → Mapped s .load addr row.2 → FirstByte s addr row.2 (NoValue s) k →
      exec (row.1 rd rs1 aq rl) s = .fault (.readOfUnspecified (byteAddr s addr k)))
  ∧ (∀ row ∈ ([(.amoswapW, 4), (.amoaddW, 4), (.amoxorW, 4), (.amoandW, 4), (.amoorW, 4), (.amominW, 4), (.amomaxW, 4),
        (.amominuW, 4), (.amomaxuW, 4), (.amoswapD, 8), (.amoaddD, 8), (.amoxorD, 8), (.amoandD, 8), (.amoorD, 8), (.amominD, 8),
        (.amomaxD, 8), (.amominuD, 8), (.amomaxuD, 8)] :
      List ((RegIdx → RegIdx → RegIdx → BitVec 1 → BitVec 1 → Instr) × Nat)),
    ∀ (rd rs1 rs2 : RegIdx) (aq rl : BitVec 1) (s : State) (k : Nat),
      let addr := s.getX rs1
      addr.toNat % row.2 = 0 → Mapped s .atomic addr row.2 → FirstByte s addr row.2 (NoValue s) k →
      exec (row.1 rd rs1 rs2 aq rl) s = .fault (.readOfUnspecified (byteAddr s addr k)))
  ∧ (∀ (rlist : BitVec 4) (spimm : BitVec 2) (s : State) (v : Nat → Nat) (k : Nat), 4 ≤ rlist.toNat →
      let w := s.cfg.xlen.bytes
      let addr (j : Nat) : Word := slot s (wrap s (uval s 2#5 + adjustment s.cfg.xlen rlist spimm)) j
      ∀ j < (listed rlist).length,
        (∀ i < j, AlignedOrEmulated s (addr i) w ∧ Mapped s .load (addr i) w ∧ Holds s (addr i) w (v i)) →
        AlignedOrEmulated s (addr j) w → Mapped s .load (addr j) w → FirstByte s (addr j) w (NoValue s) k →
        ∀ row ∈ ([.cmPop, .cmPopret, .cmPopretz] : List (BitVec 4 → BitVec 2 → Instr)),
          exec (row rlist spimm) s = .fault (.readOfUnspecified (byteAddr s (addr j) k)))
  ∧ (∀ (s : State) (k : Nat), NotHalting s → Mapped s .execute s.pc 2 → (∀ j < 2, byteAddr s s.pc j ∉ s.stale) →
      FirstByte s s.pc 2 (NoValue s) k → step s = .fault (.readOfUnspecified (byteAddr s s.pc k)))
  ∧ (∀ (s : State) (lo k : Nat),
      let next := effAddr s.xlen s.pc 2#64
      NotHalting s → Mapped s .execute s.pc 2 → (∀ j < 2, byteAddr s s.pc j ∉ s.stale) → Holds s s.pc 2 lo → lo % 4 = 3 →
      Mapped s .execute next 2 → (∀ j < 2, byteAddr s next j ∉ s.stale) → FirstByte s next 2 (NoValue s) k →
      step s = .fault (.readOfUnspecified (byteAddr s next k)))
  ∧ (∀ (s : State) (index : BitVec 8) (k : Nat),
      let w := s.cfg.xlen.bytes
      let entry := wrap s (s.jvt.toNat / 64 * 64 + index.toNat * w)
      s.jvt.toNat % 64 = 0 → Mapped s .execute entry w → (∀ j < w, byteAddr s entry j ∉ s.stale) →
      FirstByte s entry w (NoValue s) k →
      exec (.cmJt index) s = .fault (.readOfUnspecified (byteAddr s entry k))
        ∧ exec (.cmJalt index) s = .fault (.readOfUnspecified (byteAddr s entry k)))

end
end

