-- ==== Sys2Proof/Laws/Decode.lean ====
section
/-! SUPPORT. The table of the decoder: its rows do not overlap, so a row that admits a word is the row the decoder takes. -/

namespace Sys2Proof

/-- A search answers the row that passes when every row that passes gives the same. -/
theorem find?_map_eq {α β : Type} {l : List α} {p : α → Bool} {f : α → β} {r : α} (hr : r ∈ l) (hp : p r = true)
    (hu : ∀ q ∈ l, p q = true → f q = f r) : (l.find? p).map f = some (f r) := by
  cases h : l.find? p with
  | none => exact absurd hp (by simpa using List.find?_eq_none.mp h r hr)
  | some q => exact congrArg some (hu q (List.mem_of_find?_eq_some h) (List.find?_some h))

/-- Two masked patterns that differ in a bit both of them fix: no word has both. -/
theorem not_both_match {n : Nat} {w m m' p p' : BitVec n} (h : w &&& m = p) (h' : w &&& m' = p') : p &&& m' = p' &&& m := by
  rw [← h, ← h', BitVec.and_assoc, BitVec.and_assoc, BitVec.and_comm m m']

/-- Two rows differ in a bit that both fix (30_encoding.md R122). -/
def Row32.apart (r q : Row32) : Bool := r.pattern &&& q.mask != q.pattern &&& r.mask

/-- No two rows of the 32-bit table overlap. -/
theorem rows32_apart : rows32.Pairwise (fun r q => Row32.apart r q = true) := by decide +kernel

/-- A search in a list of which no two entries pass answers the one that does. -/
theorem find?_eq_of_pairwise {α : Type} {p : α → Bool} {r : α} :
    ∀ {l : List α}, l.Pairwise (fun a b => ¬(p a = true ∧ p b = true)) → r ∈ l → p r = true → l.find? p = some r
  | a :: l, hl, hr, hp => by
    rcases List.mem_cons.mp hr with rfl | hr
    · exact List.find?_cons_of_pos hp
    · have ha : ¬p a = true := fun ha => (List.pairwise_cons.mp hl).1 r hr ⟨ha, hp⟩
      rw [List.find?_cons_of_neg ha]
      exact find?_eq_of_pairwise (List.pairwise_cons.mp hl).2 hr hp

/-- A row that admits a 32-bit word is the row the decoder takes. -/
theorem decode32_eq {xlen : Xlen} {ext : Ext} {w : BitVec 32} {r : Row32} (hr : r ∈ rows32) (ha : r.admits xlen ext w = true) :
    decode32 xlen ext w = some (r.build w) := by
  have hm : ∀ {r : Row32}, r.admits xlen ext w = true → w &&& r.mask = r.pattern := fun h =>
    eq_of_beq (Bool.and_eq_true_iff.mp h).1
  have hl : rows32.Pairwise (fun r q => ¬(r.admits xlen ext w = true ∧ q.admits xlen ext w = true)) :=
    by
    refine rows32_apart.imp ?_
    rintro r q hap ⟨h₁, h₂⟩
    exact bne_iff_ne.mp hap (not_both_match (hm h₁) (hm h₂))
  rw [decode32, find?_eq_of_pairwise hl hr ha]
  rfl

/-- What the decoder reads from a 32-bit word comes from a row that admits it. -/
theorem decode32_some {xlen : Xlen} {ext : Ext} {w : BitVec 32} {i : Instr} (h : decode32 xlen ext w = some i) :
    ∃ r ∈ rows32, w &&& r.mask = r.pattern ∧ i = r.build w ∧ i.wf xlen ext = true := by
  obtain ⟨r, hr, rfl⟩ := Option.map_eq_some_iff.mp h
  have ha : r.admits xlen ext w = true := List.find?_some (p := fun r : Row32 => r.admits xlen ext w) hr
  have ha := Bool.and_eq_true_iff.mp ha
  exact ⟨r, List.mem_of_find?_eq_some hr, eq_of_beq ha.1, rfl, ha.2⟩

/-- A row that admits a 16-bit word is the row the decoder takes, when every other one that does reads the same. -/
theorem decode16_eq {xlen : Xlen} {ext : Ext} {w : BitVec 16} {r : Row16} (hr : r ∈ rows16) (ha : r.admits xlen ext w = true)
    (hu : ∀ q ∈ rows16, q.admits xlen ext w = true → q.build w = r.build w) : decode16 xlen ext w = some (r.build w) :=
  find?_map_eq hr ha hu

/-- What the decoder reads from a 16-bit word comes from a row that admits it. -/
theorem decode16_some {xlen : Xlen} {ext : Ext} {w : BitVec 16} {i : Instr} (h : decode16 xlen ext w = some i) :
    ∃ r ∈ rows16, w &&& r.mask = r.pattern ∧ i = r.build w ∧ i.wf xlen ext = true := by
  obtain ⟨r, hr, rfl⟩ := Option.map_eq_some_iff.mp h
  have ha : r.admits xlen ext w = true := List.find?_some (p := fun r : Row16 => r.admits xlen ext w) hr
  have ha := Bool.and_eq_true_iff.mp ha
  exact ⟨r, List.mem_of_find?_eq_some hr, eq_of_beq ha.1, rfl, ha.2⟩

end Sys2Proof
end

