-- ==== Sys2Proof/Laws/State.lean ====
section
/-! SUPPORT. What each update of the state leaves alone: one lemma per field per update. -/

namespace Sys2Proof.Machine

/-! `State.drawn` changes only draws. -/

@[simp] theorem drawn_cfg (s : State) : (s.drawn).cfg = s.cfg := rfl
@[simp] theorem drawn_x (s : State) : (s.drawn).x = s.x := rfl
@[simp] theorem drawn_f (s : State) : (s.drawn).f = s.f := rfl
@[simp] theorem drawn_pc (s : State) : (s.drawn).pc = s.pc := rfl
@[simp] theorem drawn_priv (s : State) : (s.drawn).priv = s.priv := rfl
@[simp] theorem drawn_fflags (s : State) : (s.drawn).fflags = s.fflags := rfl
@[simp] theorem drawn_frm (s : State) : (s.drawn).frm = s.frm := rfl
@[simp] theorem drawn_mstatus (s : State) : (s.drawn).mstatus = s.mstatus := rfl
@[simp] theorem drawn_mtvec (s : State) : (s.drawn).mtvec = s.mtvec := rfl
@[simp] theorem drawn_mscratch (s : State) : (s.drawn).mscratch = s.mscratch := rfl
@[simp] theorem drawn_mepc (s : State) : (s.drawn).mepc = s.mepc := rfl
@[simp] theorem drawn_mcause (s : State) : (s.drawn).mcause = s.mcause := rfl
@[simp] theorem drawn_mtval (s : State) : (s.drawn).mtval = s.mtval := rfl
@[simp] theorem drawn_stvec (s : State) : (s.drawn).stvec = s.stvec := rfl
@[simp] theorem drawn_sscratch (s : State) : (s.drawn).sscratch = s.sscratch := rfl
@[simp] theorem drawn_sepc (s : State) : (s.drawn).sepc = s.sepc := rfl
@[simp] theorem drawn_scause (s : State) : (s.drawn).scause = s.scause := rfl
@[simp] theorem drawn_stval (s : State) : (s.drawn).stval = s.stval := rfl
@[simp] theorem drawn_jvt (s : State) : (s.drawn).jvt = s.jvt := rfl
@[simp] theorem drawn_reservation (s : State) : (s.drawn).reservation = s.reservation := rfl
@[simp] theorem drawn_stale (s : State) : (s.drawn).stale = s.stale := rfl
@[simp] theorem drawn_mem (s : State) : (s.drawn).mem = s.mem := rfl

/-! `State.drawnIf` changes only draws. -/

@[simp] theorem drawnIf_cfg (s : State) (b : Bool) : (s.drawnIf b).cfg = s.cfg := by cases b <;> rfl
@[simp] theorem drawnIf_x (s : State) (b : Bool) : (s.drawnIf b).x = s.x := by cases b <;> rfl
@[simp] theorem drawnIf_f (s : State) (b : Bool) : (s.drawnIf b).f = s.f := by cases b <;> rfl
@[simp] theorem drawnIf_pc (s : State) (b : Bool) : (s.drawnIf b).pc = s.pc := by cases b <;> rfl
@[simp] theorem drawnIf_priv (s : State) (b : Bool) : (s.drawnIf b).priv = s.priv := by cases b <;> rfl
@[simp] theorem drawnIf_fflags (s : State) (b : Bool) : (s.drawnIf b).fflags = s.fflags := by cases b <;> rfl
@[simp] theorem drawnIf_frm (s : State) (b : Bool) : (s.drawnIf b).frm = s.frm := by cases b <;> rfl
@[simp] theorem drawnIf_mstatus (s : State) (b : Bool) : (s.drawnIf b).mstatus = s.mstatus := by cases b <;> rfl
@[simp] theorem drawnIf_mtvec (s : State) (b : Bool) : (s.drawnIf b).mtvec = s.mtvec := by cases b <;> rfl
@[simp] theorem drawnIf_mscratch (s : State) (b : Bool) : (s.drawnIf b).mscratch = s.mscratch := by cases b <;> rfl
@[simp] theorem drawnIf_mepc (s : State) (b : Bool) : (s.drawnIf b).mepc = s.mepc := by cases b <;> rfl
@[simp] theorem drawnIf_mcause (s : State) (b : Bool) : (s.drawnIf b).mcause = s.mcause := by cases b <;> rfl
@[simp] theorem drawnIf_mtval (s : State) (b : Bool) : (s.drawnIf b).mtval = s.mtval := by cases b <;> rfl
@[simp] theorem drawnIf_stvec (s : State) (b : Bool) : (s.drawnIf b).stvec = s.stvec := by cases b <;> rfl
@[simp] theorem drawnIf_sscratch (s : State) (b : Bool) : (s.drawnIf b).sscratch = s.sscratch := by cases b <;> rfl
@[simp] theorem drawnIf_sepc (s : State) (b : Bool) : (s.drawnIf b).sepc = s.sepc := by cases b <;> rfl
@[simp] theorem drawnIf_scause (s : State) (b : Bool) : (s.drawnIf b).scause = s.scause := by cases b <;> rfl
@[simp] theorem drawnIf_stval (s : State) (b : Bool) : (s.drawnIf b).stval = s.stval := by cases b <;> rfl
@[simp] theorem drawnIf_jvt (s : State) (b : Bool) : (s.drawnIf b).jvt = s.jvt := by cases b <;> rfl
@[simp] theorem drawnIf_reservation (s : State) (b : Bool) : (s.drawnIf b).reservation = s.reservation := by cases b <;> rfl
@[simp] theorem drawnIf_stale (s : State) (b : Bool) : (s.drawnIf b).stale = s.stale := by cases b <;> rfl
@[simp] theorem drawnIf_mem (s : State) (b : Bool) : (s.drawnIf b).mem = s.mem := by cases b <;> rfl

/-! `State.advance` changes only pc. -/

@[simp] theorem advance_cfg (s : State) (n : Nat) : (s.advance n).cfg = s.cfg := rfl
@[simp] theorem advance_x (s : State) (n : Nat) : (s.advance n).x = s.x := rfl
@[simp] theorem advance_f (s : State) (n : Nat) : (s.advance n).f = s.f := rfl
@[simp] theorem advance_priv (s : State) (n : Nat) : (s.advance n).priv = s.priv := rfl
@[simp] theorem advance_fflags (s : State) (n : Nat) : (s.advance n).fflags = s.fflags := rfl
@[simp] theorem advance_frm (s : State) (n : Nat) : (s.advance n).frm = s.frm := rfl
@[simp] theorem advance_mstatus (s : State) (n : Nat) : (s.advance n).mstatus = s.mstatus := rfl
@[simp] theorem advance_mtvec (s : State) (n : Nat) : (s.advance n).mtvec = s.mtvec := rfl
@[simp] theorem advance_mscratch (s : State) (n : Nat) : (s.advance n).mscratch = s.mscratch := rfl
@[simp] theorem advance_mepc (s : State) (n : Nat) : (s.advance n).mepc = s.mepc := rfl
@[simp] theorem advance_mcause (s : State) (n : Nat) : (s.advance n).mcause = s.mcause := rfl
@[simp] theorem advance_mtval (s : State) (n : Nat) : (s.advance n).mtval = s.mtval := rfl
@[simp] theorem advance_stvec (s : State) (n : Nat) : (s.advance n).stvec = s.stvec := rfl
@[simp] theorem advance_sscratch (s : State) (n : Nat) : (s.advance n).sscratch = s.sscratch := rfl
@[simp] theorem advance_sepc (s : State) (n : Nat) : (s.advance n).sepc = s.sepc := rfl
@[simp] theorem advance_scause (s : State) (n : Nat) : (s.advance n).scause = s.scause := rfl
@[simp] theorem advance_stval (s : State) (n : Nat) : (s.advance n).stval = s.stval := rfl
@[simp] theorem advance_jvt (s : State) (n : Nat) : (s.advance n).jvt = s.jvt := rfl
@[simp] theorem advance_reservation (s : State) (n : Nat) : (s.advance n).reservation = s.reservation := rfl
@[simp] theorem advance_stale (s : State) (n : Nat) : (s.advance n).stale = s.stale := rfl
@[simp] theorem advance_mem (s : State) (n : Nat) : (s.advance n).mem = s.mem := rfl
@[simp] theorem advance_draws (s : State) (n : Nat) : (s.advance n).draws = s.draws := rfl

/-! `State.setX` changes only x. -/

@[simp] theorem setX_cfg (s : State) (r : RegIdx) (v : Word) : (s.setX r v).cfg = s.cfg := by unfold State.setX; split <;> rfl
@[simp] theorem setX_f (s : State) (r : RegIdx) (v : Word) : (s.setX r v).f = s.f := by unfold State.setX; split <;> rfl
@[simp] theorem setX_pc (s : State) (r : RegIdx) (v : Word) : (s.setX r v).pc = s.pc := by unfold State.setX; split <;> rfl
@[simp] theorem setX_priv (s : State) (r : RegIdx) (v : Word) : (s.setX r v).priv = s.priv := by unfold State.setX; split <;> rfl
@[simp] theorem setX_fflags (s : State) (r : RegIdx) (v : Word) : (s.setX r v).fflags = s.fflags := by unfold State.setX; split <;> rfl
@[simp] theorem setX_frm (s : State) (r : RegIdx) (v : Word) : (s.setX r v).frm = s.frm := by unfold State.setX; split <;> rfl
@[simp] theorem setX_mstatus (s : State) (r : RegIdx) (v : Word) : (s.setX r v).mstatus = s.mstatus := by unfold State.setX; split <;> rfl
@[simp] theorem setX_mtvec (s : State) (r : RegIdx) (v : Word) : (s.setX r v).mtvec = s.mtvec := by unfold State.setX; split <;> rfl
@[simp] theorem setX_mscratch (s : State) (r : RegIdx) (v : Word) : (s.setX r v).mscratch = s.mscratch := by unfold State.setX; split <;> rfl
@[simp] theorem setX_mepc (s : State) (r : RegIdx) (v : Word) : (s.setX r v).mepc = s.mepc := by unfold State.setX; split <;> rfl
@[simp] theorem setX_mcause (s : State) (r : RegIdx) (v : Word) : (s.setX r v).mcause = s.mcause := by unfold State.setX; split <;> rfl
@[simp] theorem setX_mtval (s : State) (r : RegIdx) (v : Word) : (s.setX r v).mtval = s.mtval := by unfold State.setX; split <;> rfl
@[simp] theorem setX_stvec (s : State) (r : RegIdx) (v : Word) : (s.setX r v).stvec = s.stvec := by unfold State.setX; split <;> rfl
@[simp] theorem setX_sscratch (s : State) (r : RegIdx) (v : Word) : (s.setX r v).sscratch = s.sscratch := by unfold State.setX; split <;> rfl
@[simp] theorem setX_sepc (s : State) (r : RegIdx) (v : Word) : (s.setX r v).sepc = s.sepc := by unfold State.setX; split <;> rfl
@[simp] theorem setX_scause (s : State) (r : RegIdx) (v : Word) : (s.setX r v).scause = s.scause := by unfold State.setX; split <;> rfl
@[simp] theorem setX_stval (s : State) (r : RegIdx) (v : Word) : (s.setX r v).stval = s.stval := by unfold State.setX; split <;> rfl
@[simp] theorem setX_jvt (s : State) (r : RegIdx) (v : Word) : (s.setX r v).jvt = s.jvt := by unfold State.setX; split <;> rfl
@[simp] theorem setX_reservation (s : State) (r : RegIdx) (v : Word) : (s.setX r v).reservation = s.reservation := by unfold State.setX; split <;> rfl
@[simp] theorem setX_stale (s : State) (r : RegIdx) (v : Word) : (s.setX r v).stale = s.stale := by unfold State.setX; split <;> rfl
@[simp] theorem setX_mem (s : State) (r : RegIdx) (v : Word) : (s.setX r v).mem = s.mem := by unfold State.setX; split <;> rfl
@[simp] theorem setX_draws (s : State) (r : RegIdx) (v : Word) : (s.setX r v).draws = s.draws := by unfold State.setX; split <;> rfl

/-! `State.writeX` changes only x, pc. -/

@[simp] theorem writeX_cfg (s : State) (n : Nat) (r : RegIdx) (v : Word) : (s.writeX n r v).cfg = s.cfg := by simp [State.writeX]
@[simp] theorem writeX_f (s : State) (n : Nat) (r : RegIdx) (v : Word) : (s.writeX n r v).f = s.f := by simp [State.writeX]
@[simp] theorem writeX_priv (s : State) (n : Nat) (r : RegIdx) (v : Word) : (s.writeX n r v).priv = s.priv := by simp [State.writeX]
@[simp] theorem writeX_fflags (s : State) (n : Nat) (r : RegIdx) (v : Word) : (s.writeX n r v).fflags = s.fflags := by simp [State.writeX]
@[simp] theorem writeX_frm (s : State) (n : Nat) (r : RegIdx) (v : Word) : (s.writeX n r v).frm = s.frm := by simp [State.writeX]
@[simp] theorem writeX_mstatus (s : State) (n : Nat) (r : RegIdx) (v : Word) : (s.writeX n r v).mstatus = s.mstatus := by simp [State.writeX]
@[simp] theorem writeX_mtvec (s : State) (n : Nat) (r : RegIdx) (v : Word) : (s.writeX n r v).mtvec = s.mtvec := by simp [State.writeX]
@[simp] theorem writeX_mscratch (s : State) (n : Nat) (r : RegIdx) (v : Word) : (s.writeX n r v).mscratch = s.mscratch := by simp [State.writeX]
@[simp] theorem writeX_mepc (s : State) (n : Nat) (r : RegIdx) (v : Word) : (s.writeX n r v).mepc = s.mepc := by simp [State.writeX]
@[simp] theorem writeX_mcause (s : State) (n : Nat) (r : RegIdx) (v : Word) : (s.writeX n r v).mcause = s.mcause := by simp [State.writeX]
@[simp] theorem writeX_mtval (s : State) (n : Nat) (r : RegIdx) (v : Word) : (s.writeX n r v).mtval = s.mtval := by simp [State.writeX]
@[simp] theorem writeX_stvec (s : State) (n : Nat) (r : RegIdx) (v : Word) : (s.writeX n r v).stvec = s.stvec := by simp [State.writeX]
@[simp] theorem writeX_sscratch (s : State) (n : Nat) (r : RegIdx) (v : Word) : (s.writeX n r v).sscratch = s.sscratch := by simp [State.writeX]
@[simp] theorem writeX_sepc (s : State) (n : Nat) (r : RegIdx) (v : Word) : (s.writeX n r v).sepc = s.sepc := by simp [State.writeX]
@[simp] theorem writeX_scause (s : State) (n : Nat) (r : RegIdx) (v : Word) : (s.writeX n r v).scause = s.scause := by simp [State.writeX]
@[simp] theorem writeX_stval (s : State) (n : Nat) (r : RegIdx) (v : Word) : (s.writeX n r v).stval = s.stval := by simp [State.writeX]
@[simp] theorem writeX_jvt (s : State) (n : Nat) (r : RegIdx) (v : Word) : (s.writeX n r v).jvt = s.jvt := by simp [State.writeX]
@[simp] theorem writeX_reservation (s : State) (n : Nat) (r : RegIdx) (v : Word) : (s.writeX n r v).reservation = s.reservation := by simp [State.writeX]
@[simp] theorem writeX_stale (s : State) (n : Nat) (r : RegIdx) (v : Word) : (s.writeX n r v).stale = s.stale := by simp [State.writeX]
@[simp] theorem writeX_mem (s : State) (n : Nat) (r : RegIdx) (v : Word) : (s.writeX n r v).mem = s.mem := by simp [State.writeX]
@[simp] theorem writeX_draws (s : State) (n : Nat) (r : RegIdx) (v : Word) : (s.writeX n r v).draws = s.draws := by simp [State.writeX]

/-! `State.dirtyFs` changes only mstatus. -/

@[simp] theorem dirtyFs_cfg (s : State) : (s.dirtyFs).cfg = s.cfg := by unfold State.dirtyFs; split <;> rfl
@[simp] theorem dirtyFs_x (s : State) : (s.dirtyFs).x = s.x := by unfold State.dirtyFs; split <;> rfl
@[simp] theorem dirtyFs_f (s : State) : (s.dirtyFs).f = s.f := by unfold State.dirtyFs; split <;> rfl
@[simp] theorem dirtyFs_pc (s : State) : (s.dirtyFs).pc = s.pc := by unfold State.dirtyFs; split <;> rfl
@[simp] theorem dirtyFs_priv (s : State) : (s.dirtyFs).priv = s.priv := by unfold State.dirtyFs; split <;> rfl
@[simp] theorem dirtyFs_fflags (s : State) : (s.dirtyFs).fflags = s.fflags := by unfold State.dirtyFs; split <;> rfl
@[simp] theorem dirtyFs_frm (s : State) : (s.dirtyFs).frm = s.frm := by unfold State.dirtyFs; split <;> rfl
@[simp] theorem dirtyFs_mtvec (s : State) : (s.dirtyFs).mtvec = s.mtvec := by unfold State.dirtyFs; split <;> rfl
@[simp] theorem dirtyFs_mscratch (s : State) : (s.dirtyFs).mscratch = s.mscratch := by unfold State.dirtyFs; split <;> rfl
@[simp] theorem dirtyFs_mepc (s : State) : (s.dirtyFs).mepc = s.mepc := by unfold State.dirtyFs; split <;> rfl
@[simp] theorem dirtyFs_mcause (s : State) : (s.dirtyFs).mcause = s.mcause := by unfold State.dirtyFs; split <;> rfl
@[simp] theorem dirtyFs_mtval (s : State) : (s.dirtyFs).mtval = s.mtval := by unfold State.dirtyFs; split <;> rfl
@[simp] theorem dirtyFs_stvec (s : State) : (s.dirtyFs).stvec = s.stvec := by unfold State.dirtyFs; split <;> rfl
@[simp] theorem dirtyFs_sscratch (s : State) : (s.dirtyFs).sscratch = s.sscratch := by unfold State.dirtyFs; split <;> rfl
@[simp] theorem dirtyFs_sepc (s : State) : (s.dirtyFs).sepc = s.sepc := by unfold State.dirtyFs; split <;> rfl
@[simp] theorem dirtyFs_scause (s : State) : (s.dirtyFs).scause = s.scause := by unfold State.dirtyFs; split <;> rfl
@[simp] theorem dirtyFs_stval (s : State) : (s.dirtyFs).stval = s.stval := by unfold State.dirtyFs; split <;> rfl
@[simp] theorem dirtyFs_jvt (s : State) : (s.dirtyFs).jvt = s.jvt := by unfold State.dirtyFs; split <;> rfl
@[simp] theorem dirtyFs_reservation (s : State) : (s.dirtyFs).reservation = s.reservation := by unfold State.dirtyFs; split <;> rfl
@[simp] theorem dirtyFs_stale (s : State) : (s.dirtyFs).stale = s.stale := by unfold State.dirtyFs; split <;> rfl
@[simp] theorem dirtyFs_mem (s : State) : (s.dirtyFs).mem = s.mem := by unfold State.dirtyFs; split <;> rfl
@[simp] theorem dirtyFs_draws (s : State) : (s.dirtyFs).draws = s.draws := by unfold State.dirtyFs; split <;> rfl

/-! `State.setF` changes only f, mstatus. -/

@[simp] theorem setF_cfg (s : State) (r : RegIdx) (v : Word) : (s.setF r v).cfg = s.cfg := by simp [State.setF]
@[simp] theorem setF_x (s : State) (r : RegIdx) (v : Word) : (s.setF r v).x = s.x := by simp [State.setF]
@[simp] theorem setF_pc (s : State) (r : RegIdx) (v : Word) : (s.setF r v).pc = s.pc := by simp [State.setF]
@[simp] theorem setF_priv (s : State) (r : RegIdx) (v : Word) : (s.setF r v).priv = s.priv := by simp [State.setF]
@[simp] theorem setF_fflags (s : State) (r : RegIdx) (v : Word) : (s.setF r v).fflags = s.fflags := by simp [State.setF]
@[simp] theorem setF_frm (s : State) (r : RegIdx) (v : Word) : (s.setF r v).frm = s.frm := by simp [State.setF]
@[simp] theorem setF_mtvec (s : State) (r : RegIdx) (v : Word) : (s.setF r v).mtvec = s.mtvec := by simp [State.setF]
@[simp] theorem setF_mscratch (s : State) (r : RegIdx) (v : Word) : (s.setF r v).mscratch = s.mscratch := by simp [State.setF]
@[simp] theorem setF_mepc (s : State) (r : RegIdx) (v : Word) : (s.setF r v).mepc = s.mepc := by simp [State.setF]
@[simp] theorem setF_mcause (s : State) (r : RegIdx) (v : Word) : (s.setF r v).mcause = s.mcause := by simp [State.setF]
@[simp] theorem setF_mtval (s : State) (r : RegIdx) (v : Word) : (s.setF r v).mtval = s.mtval := by simp [State.setF]
@[simp] theorem setF_stvec (s : State) (r : RegIdx) (v : Word) : (s.setF r v).stvec = s.stvec := by simp [State.setF]
@[simp] theorem setF_sscratch (s : State) (r : RegIdx) (v : Word) : (s.setF r v).sscratch = s.sscratch := by simp [State.setF]
@[simp] theorem setF_sepc (s : State) (r : RegIdx) (v : Word) : (s.setF r v).sepc = s.sepc := by simp [State.setF]
@[simp] theorem setF_scause (s : State) (r : RegIdx) (v : Word) : (s.setF r v).scause = s.scause := by simp [State.setF]
@[simp] theorem setF_stval (s : State) (r : RegIdx) (v : Word) : (s.setF r v).stval = s.stval := by simp [State.setF]
@[simp] theorem setF_jvt (s : State) (r : RegIdx) (v : Word) : (s.setF r v).jvt = s.jvt := by simp [State.setF]
@[simp] theorem setF_reservation (s : State) (r : RegIdx) (v : Word) : (s.setF r v).reservation = s.reservation := by simp [State.setF]
@[simp] theorem setF_stale (s : State) (r : RegIdx) (v : Word) : (s.setF r v).stale = s.stale := by simp [State.setF]
@[simp] theorem setF_mem (s : State) (r : RegIdx) (v : Word) : (s.setF r v).mem = s.mem := by simp [State.setF]
@[simp] theorem setF_draws (s : State) (r : RegIdx) (v : Word) : (s.setF r v).draws = s.draws := by simp [State.setF]

/-! `State.orFlags` changes only fflags, mstatus. -/

@[simp] theorem orFlags_cfg (s : State) (fl : FpFlags) : (s.orFlags fl).cfg = s.cfg := by simp [State.orFlags]
@[simp] theorem orFlags_x (s : State) (fl : FpFlags) : (s.orFlags fl).x = s.x := by simp [State.orFlags]
@[simp] theorem orFlags_f (s : State) (fl : FpFlags) : (s.orFlags fl).f = s.f := by simp [State.orFlags]
@[simp] theorem orFlags_pc (s : State) (fl : FpFlags) : (s.orFlags fl).pc = s.pc := by simp [State.orFlags]
@[simp] theorem orFlags_priv (s : State) (fl : FpFlags) : (s.orFlags fl).priv = s.priv := by simp [State.orFlags]
@[simp] theorem orFlags_frm (s : State) (fl : FpFlags) : (s.orFlags fl).frm = s.frm := by simp [State.orFlags]
@[simp] theorem orFlags_mtvec (s : State) (fl : FpFlags) : (s.orFlags fl).mtvec = s.mtvec := by simp [State.orFlags]
@[simp] theorem orFlags_mscratch (s : State) (fl : FpFlags) : (s.orFlags fl).mscratch = s.mscratch := by simp [State.orFlags]
@[simp] theorem orFlags_mepc (s : State) (fl : FpFlags) : (s.orFlags fl).mepc = s.mepc := by simp [State.orFlags]
@[simp] theorem orFlags_mcause (s : State) (fl : FpFlags) : (s.orFlags fl).mcause = s.mcause := by simp [State.orFlags]
@[simp] theorem orFlags_mtval (s : State) (fl : FpFlags) : (s.orFlags fl).mtval = s.mtval := by simp [State.orFlags]
@[simp] theorem orFlags_stvec (s : State) (fl : FpFlags) : (s.orFlags fl).stvec = s.stvec := by simp [State.orFlags]
@[simp] theorem orFlags_sscratch (s : State) (fl : FpFlags) : (s.orFlags fl).sscratch = s.sscratch := by simp [State.orFlags]
@[simp] theorem orFlags_sepc (s : State) (fl : FpFlags) : (s.orFlags fl).sepc = s.sepc := by simp [State.orFlags]
@[simp] theorem orFlags_scause (s : State) (fl : FpFlags) : (s.orFlags fl).scause = s.scause := by simp [State.orFlags]
@[simp] theorem orFlags_stval (s : State) (fl : FpFlags) : (s.orFlags fl).stval = s.stval := by simp [State.orFlags]
@[simp] theorem orFlags_jvt (s : State) (fl : FpFlags) : (s.orFlags fl).jvt = s.jvt := by simp [State.orFlags]
@[simp] theorem orFlags_reservation (s : State) (fl : FpFlags) : (s.orFlags fl).reservation = s.reservation := by simp [State.orFlags]
@[simp] theorem orFlags_stale (s : State) (fl : FpFlags) : (s.orFlags fl).stale = s.stale := by simp [State.orFlags]
@[simp] theorem orFlags_mem (s : State) (fl : FpFlags) : (s.orFlags fl).mem = s.mem := by simp [State.orFlags]
@[simp] theorem orFlags_draws (s : State) (fl : FpFlags) : (s.orFlags fl).draws = s.draws := by simp [State.orFlags]

/-! `State.writeFp` changes only f, fflags, mstatus, pc. -/

@[simp] theorem writeFp_cfg (s : State) (fmt : FloatFormat) (r : RegIdx) (res : Word × FpFlags) : (s.writeFp fmt r res).cfg = s.cfg := by simp [State.writeFp]
@[simp] theorem writeFp_x (s : State) (fmt : FloatFormat) (r : RegIdx) (res : Word × FpFlags) : (s.writeFp fmt r res).x = s.x := by simp [State.writeFp]
@[simp] theorem writeFp_priv (s : State) (fmt : FloatFormat) (r : RegIdx) (res : Word × FpFlags) : (s.writeFp fmt r res).priv = s.priv := by simp [State.writeFp]
@[simp] theorem writeFp_frm (s : State) (fmt : FloatFormat) (r : RegIdx) (res : Word × FpFlags) : (s.writeFp fmt r res).frm = s.frm := by simp [State.writeFp]
@[simp] theorem writeFp_mtvec (s : State) (fmt : FloatFormat) (r : RegIdx) (res : Word × FpFlags) : (s.writeFp fmt r res).mtvec = s.mtvec := by simp [State.writeFp]
@[simp] theorem writeFp_mscratch (s : State) (fmt : FloatFormat) (r : RegIdx) (res : Word × FpFlags) : (s.writeFp fmt r res).mscratch = s.mscratch := by simp [State.writeFp]
@[simp] theorem writeFp_mepc (s : State) (fmt : FloatFormat) (r : RegIdx) (res : Word × FpFlags) : (s.writeFp fmt r res).mepc = s.mepc := by simp [State.writeFp]
@[simp] theorem writeFp_mcause (s : State) (fmt : FloatFormat) (r : RegIdx) (res : Word × FpFlags) : (s.writeFp fmt r res).mcause = s.mcause := by simp [State.writeFp]
@[simp] theorem writeFp_mtval (s : State) (fmt : FloatFormat) (r : RegIdx) (res : Word × FpFlags) : (s.writeFp fmt r res).mtval = s.mtval := by simp [State.writeFp]
@[simp] theorem writeFp_stvec (s : State) (fmt : FloatFormat) (r : RegIdx) (res : Word × FpFlags) : (s.writeFp fmt r res).stvec = s.stvec := by simp [State.writeFp]
@[simp] theorem writeFp_sscratch (s : State) (fmt : FloatFormat) (r : RegIdx) (res : Word × FpFlags) : (s.writeFp fmt r res).sscratch = s.sscratch := by simp [State.writeFp]
@[simp] theorem writeFp_sepc (s : State) (fmt : FloatFormat) (r : RegIdx) (res : Word × FpFlags) : (s.writeFp fmt r res).sepc = s.sepc := by simp [State.writeFp]
@[simp] theorem writeFp_scause (s : State) (fmt : FloatFormat) (r : RegIdx) (res : Word × FpFlags) : (s.writeFp fmt r res).scause = s.scause := by simp [State.writeFp]
@[simp] theorem writeFp_stval (s : State) (fmt : FloatFormat) (r : RegIdx) (res : Word × FpFlags) : (s.writeFp fmt r res).stval = s.stval := by simp [State.writeFp]
@[simp] theorem writeFp_jvt (s : State) (fmt : FloatFormat) (r : RegIdx) (res : Word × FpFlags) : (s.writeFp fmt r res).jvt = s.jvt := by simp [State.writeFp]
@[simp] theorem writeFp_reservation (s : State) (fmt : FloatFormat) (r : RegIdx) (res : Word × FpFlags) : (s.writeFp fmt r res).reservation = s.reservation := by simp [State.writeFp]
@[simp] theorem writeFp_stale (s : State) (fmt : FloatFormat) (r : RegIdx) (res : Word × FpFlags) : (s.writeFp fmt r res).stale = s.stale := by simp [State.writeFp]
@[simp] theorem writeFp_mem (s : State) (fmt : FloatFormat) (r : RegIdx) (res : Word × FpFlags) : (s.writeFp fmt r res).mem = s.mem := by simp [State.writeFp]
@[simp] theorem writeFp_draws (s : State) (fmt : FloatFormat) (r : RegIdx) (res : Word × FpFlags) : (s.writeFp fmt r res).draws = s.draws := by simp [State.writeFp]

/-! `State.writeRaw` changes only f, mstatus, pc. -/

@[simp] theorem writeRaw_cfg (s : State) (n : Nat) (fmt : FloatFormat) (r : RegIdx) (v : Word) : (s.writeRaw n fmt r v).cfg = s.cfg := by simp [State.writeRaw]
@[simp] theorem writeRaw_x (s : State) (n : Nat) (fmt : FloatFormat) (r : RegIdx) (v : Word) : (s.writeRaw n fmt r v).x = s.x := by simp [State.writeRaw]
@[simp] theorem writeRaw_priv (s : State) (n : Nat) (fmt : FloatFormat) (r : RegIdx) (v : Word) : (s.writeRaw n fmt r v).priv = s.priv := by simp [State.writeRaw]
@[simp] theorem writeRaw_fflags (s : State) (n : Nat) (fmt : FloatFormat) (r : RegIdx) (v : Word) : (s.writeRaw n fmt r v).fflags = s.fflags := by simp [State.writeRaw]
@[simp] theorem writeRaw_frm (s : State) (n : Nat) (fmt : FloatFormat) (r : RegIdx) (v : Word) : (s.writeRaw n fmt r v).frm = s.frm := by simp [State.writeRaw]
@[simp] theorem writeRaw_mtvec (s : State) (n : Nat) (fmt : FloatFormat) (r : RegIdx) (v : Word) : (s.writeRaw n fmt r v).mtvec = s.mtvec := by simp [State.writeRaw]
@[simp] theorem writeRaw_mscratch (s : State) (n : Nat) (fmt : FloatFormat) (r : RegIdx) (v : Word) : (s.writeRaw n fmt r v).mscratch = s.mscratch := by simp [State.writeRaw]
@[simp] theorem writeRaw_mepc (s : State) (n : Nat) (fmt : FloatFormat) (r : RegIdx) (v : Word) : (s.writeRaw n fmt r v).mepc = s.mepc := by simp [State.writeRaw]
@[simp] theorem writeRaw_mcause (s : State) (n : Nat) (fmt : FloatFormat) (r : RegIdx) (v : Word) : (s.writeRaw n fmt r v).mcause = s.mcause := by simp [State.writeRaw]
@[simp] theorem writeRaw_mtval (s : State) (n : Nat) (fmt : FloatFormat) (r : RegIdx) (v : Word) : (s.writeRaw n fmt r v).mtval = s.mtval := by simp [State.writeRaw]
@[simp] theorem writeRaw_stvec (s : State) (n : Nat) (fmt : FloatFormat) (r : RegIdx) (v : Word) : (s.writeRaw n fmt r v).stvec = s.stvec := by simp [State.writeRaw]
@[simp] theorem writeRaw_sscratch (s : State) (n : Nat) (fmt : FloatFormat) (r : RegIdx) (v : Word) : (s.writeRaw n fmt r v).sscratch = s.sscratch := by simp [State.writeRaw]
@[simp] theorem writeRaw_sepc (s : State) (n : Nat) (fmt : FloatFormat) (r : RegIdx) (v : Word) : (s.writeRaw n fmt r v).sepc = s.sepc := by simp [State.writeRaw]
@[simp] theorem writeRaw_scause (s : State) (n : Nat) (fmt : FloatFormat) (r : RegIdx) (v : Word) : (s.writeRaw n fmt r v).scause = s.scause := by simp [State.writeRaw]
@[simp] theorem writeRaw_stval (s : State) (n : Nat) (fmt : FloatFormat) (r : RegIdx) (v : Word) : (s.writeRaw n fmt r v).stval = s.stval := by simp [State.writeRaw]
@[simp] theorem writeRaw_jvt (s : State) (n : Nat) (fmt : FloatFormat) (r : RegIdx) (v : Word) : (s.writeRaw n fmt r v).jvt = s.jvt := by simp [State.writeRaw]
@[simp] theorem writeRaw_reservation (s : State) (n : Nat) (fmt : FloatFormat) (r : RegIdx) (v : Word) : (s.writeRaw n fmt r v).reservation = s.reservation := by simp [State.writeRaw]
@[simp] theorem writeRaw_stale (s : State) (n : Nat) (fmt : FloatFormat) (r : RegIdx) (v : Word) : (s.writeRaw n fmt r v).stale = s.stale := by simp [State.writeRaw]
@[simp] theorem writeRaw_mem (s : State) (n : Nat) (fmt : FloatFormat) (r : RegIdx) (v : Word) : (s.writeRaw n fmt r v).mem = s.mem := by simp [State.writeRaw]
@[simp] theorem writeRaw_draws (s : State) (n : Nat) (fmt : FloatFormat) (r : RegIdx) (v : Word) : (s.writeRaw n fmt r v).draws = s.draws := by simp [State.writeRaw]

/-! `State.writeInt` changes only x, fflags, mstatus, pc. -/

@[simp] theorem writeInt_cfg (s : State) (r : RegIdx) (v : Word) (fl : FpFlags) : (s.writeInt r v fl).cfg = s.cfg := by simp [State.writeInt]
@[simp] theorem writeInt_f (s : State) (r : RegIdx) (v : Word) (fl : FpFlags) : (s.writeInt r v fl).f = s.f := by simp [State.writeInt]
@[simp] theorem writeInt_priv (s : State) (r : RegIdx) (v : Word) (fl : FpFlags) : (s.writeInt r v fl).priv = s.priv := by simp [State.writeInt]
@[simp] theorem writeInt_frm (s : State) (r : RegIdx) (v : Word) (fl : FpFlags) : (s.writeInt r v fl).frm = s.frm := by simp [State.writeInt]
@[simp] theorem writeInt_mtvec (s : State) (r : RegIdx) (v : Word) (fl : FpFlags) : (s.writeInt r v fl).mtvec = s.mtvec := by simp [State.writeInt]
@[simp] theorem writeInt_mscratch (s : State) (r : RegIdx) (v : Word) (fl : FpFlags) : (s.writeInt r v fl).mscratch = s.mscratch := by simp [State.writeInt]
@[simp] theorem writeInt_mepc (s : State) (r : RegIdx) (v : Word) (fl : FpFlags) : (s.writeInt r v fl).mepc = s.mepc := by simp [State.writeInt]
@[simp] theorem writeInt_mcause (s : State) (r : RegIdx) (v : Word) (fl : FpFlags) : (s.writeInt r v fl).mcause = s.mcause := by simp [State.writeInt]
@[simp] theorem writeInt_mtval (s : State) (r : RegIdx) (v : Word) (fl : FpFlags) : (s.writeInt r v fl).mtval = s.mtval := by simp [State.writeInt]
@[simp] theorem writeInt_stvec (s : State) (r : RegIdx) (v : Word) (fl : FpFlags) : (s.writeInt r v fl).stvec = s.stvec := by simp [State.writeInt]
@[simp] theorem writeInt_sscratch (s : State) (r : RegIdx) (v : Word) (fl : FpFlags) : (s.writeInt r v fl).sscratch = s.sscratch := by simp [State.writeInt]
@[simp] theorem writeInt_sepc (s : State) (r : RegIdx) (v : Word) (fl : FpFlags) : (s.writeInt r v fl).sepc = s.sepc := by simp [State.writeInt]
@[simp] theorem writeInt_scause (s : State) (r : RegIdx) (v : Word) (fl : FpFlags) : (s.writeInt r v fl).scause = s.scause := by simp [State.writeInt]
@[simp] theorem writeInt_stval (s : State) (r : RegIdx) (v : Word) (fl : FpFlags) : (s.writeInt r v fl).stval = s.stval := by simp [State.writeInt]
@[simp] theorem writeInt_jvt (s : State) (r : RegIdx) (v : Word) (fl : FpFlags) : (s.writeInt r v fl).jvt = s.jvt := by simp [State.writeInt]
@[simp] theorem writeInt_reservation (s : State) (r : RegIdx) (v : Word) (fl : FpFlags) : (s.writeInt r v fl).reservation = s.reservation := by simp [State.writeInt]
@[simp] theorem writeInt_stale (s : State) (r : RegIdx) (v : Word) (fl : FpFlags) : (s.writeInt r v fl).stale = s.stale := by simp [State.writeInt]
@[simp] theorem writeInt_mem (s : State) (r : RegIdx) (v : Word) (fl : FpFlags) : (s.writeInt r v fl).mem = s.mem := by simp [State.writeInt]
@[simp] theorem writeInt_draws (s : State) (r : RegIdx) (v : Word) (fl : FpFlags) : (s.writeInt r v fl).draws = s.draws := by simp [State.writeInt]

/-! `State.putBytes` changes only mem, stale. -/

@[simp] theorem putBytes_cfg (s : State) (l : List (Nat × Byte)) : (s.putBytes l).cfg = s.cfg := by
  induction l generalizing s with
  | nil => rfl
  | cons p rest ih => simp [State.putBytes, ih]
@[simp] theorem putBytes_x (s : State) (l : List (Nat × Byte)) : (s.putBytes l).x = s.x := by
  induction l generalizing s with
  | nil => rfl
  | cons p rest ih => simp [State.putBytes, ih]
@[simp] theorem putBytes_f (s : State) (l : List (Nat × Byte)) : (s.putBytes l).f = s.f := by
  induction l generalizing s with
  | nil => rfl
  | cons p rest ih => simp [State.putBytes, ih]
@[simp] theorem putBytes_pc (s : State) (l : List (Nat × Byte)) : (s.putBytes l).pc = s.pc := by
  induction l generalizing s with
  | nil => rfl
  | cons p rest ih => simp [State.putBytes, ih]
@[simp] theorem putBytes_priv (s : State) (l : List (Nat × Byte)) : (s.putBytes l).priv = s.priv := by
  induction l generalizing s with
  | nil => rfl
  | cons p rest ih => simp [State.putBytes, ih]
@[simp] theorem putBytes_fflags (s : State) (l : List (Nat × Byte)) : (s.putBytes l).fflags = s.fflags := by
  induction l generalizing s with
  | nil => rfl
  | cons p rest ih => simp [State.putBytes, ih]
@[simp] theorem putBytes_frm (s : State) (l : List (Nat × Byte)) : (s.putBytes l).frm = s.frm := by
  induction l generalizing s with
  | nil => rfl
  | cons p rest ih => simp [State.putBytes, ih]
@[simp] theorem putBytes_mstatus (s : State) (l : List (Nat × Byte)) : (s.putBytes l).mstatus = s.mstatus := by
  induction l generalizing s with
  | nil => rfl
  | cons p rest ih => simp [State.putBytes, ih]
@[simp] theorem putBytes_mtvec (s : State) (l : List (Nat × Byte)) : (s.putBytes l).mtvec = s.mtvec := by
  induction l generalizing s with
  | nil => rfl
  | cons p rest ih => simp [State.putBytes, ih]
@[simp] theorem putBytes_mscratch (s : State) (l : List (Nat × Byte)) : (s.putBytes l).mscratch = s.mscratch := by
  induction l generalizing s with
  | nil => rfl
  | cons p rest ih => simp [State.putBytes, ih]
@[simp] theorem putBytes_mepc (s : State) (l : List (Nat × Byte)) : (s.putBytes l).mepc = s.mepc := by
  induction l generalizing s with
  | nil => rfl
  | cons p rest ih => simp [State.putBytes, ih]
@[simp] theorem putBytes_mcause (s : State) (l : List (Nat × Byte)) : (s.putBytes l).mcause = s.mcause := by
  induction l generalizing s with
  | nil => rfl
  | cons p rest ih => simp [State.putBytes, ih]
@[simp] theorem putBytes_mtval (s : State) (l : List (Nat × Byte)) : (s.putBytes l).mtval = s.mtval := by
  induction l generalizing s with
  | nil => rfl
  | cons p rest ih => simp [State.putBytes, ih]
@[simp] theorem putBytes_stvec (s : State) (l : List (Nat × Byte)) : (s.putBytes l).stvec = s.stvec := by
  induction l generalizing s with
  | nil => rfl
  | cons p rest ih => simp [State.putBytes, ih]
@[simp] theorem putBytes_sscratch (s : State) (l : List (Nat × Byte)) : (s.putBytes l).sscratch = s.sscratch := by
  induction l generalizing s with
  | nil => rfl
  | cons p rest ih => simp [State.putBytes, ih]
@[simp] theorem putBytes_sepc (s : State) (l : List (Nat × Byte)) : (s.putBytes l).sepc = s.sepc := by
  induction l generalizing s with
  | nil => rfl
  | cons p rest ih => simp [State.putBytes, ih]
@[simp] theorem putBytes_scause (s : State) (l : List (Nat × Byte)) : (s.putBytes l).scause = s.scause := by
  induction l generalizing s with
  | nil => rfl
  | cons p rest ih => simp [State.putBytes, ih]
@[simp] theorem putBytes_stval (s : State) (l : List (Nat × Byte)) : (s.putBytes l).stval = s.stval := by
  induction l generalizing s with
  | nil => rfl
  | cons p rest ih => simp [State.putBytes, ih]
@[simp] theorem putBytes_jvt (s : State) (l : List (Nat × Byte)) : (s.putBytes l).jvt = s.jvt := by
  induction l generalizing s with
  | nil => rfl
  | cons p rest ih => simp [State.putBytes, ih]
@[simp] theorem putBytes_reservation (s : State) (l : List (Nat × Byte)) : (s.putBytes l).reservation = s.reservation := by
  induction l generalizing s with
  | nil => rfl
  | cons p rest ih => simp [State.putBytes, ih]
@[simp] theorem putBytes_draws (s : State) (l : List (Nat × Byte)) : (s.putBytes l).draws = s.draws := by
  induction l generalizing s with
  | nil => rfl
  | cons p rest ih => simp [State.putBytes, ih]

/-! `State.poke` changes only mem, stale. -/

@[simp] theorem poke_cfg (s : State) (a : Word) (n : Nat) (v : Word) : (s.poke a n v).cfg = s.cfg := by simp [State.poke]
@[simp] theorem poke_x (s : State) (a : Word) (n : Nat) (v : Word) : (s.poke a n v).x = s.x := by simp [State.poke]
@[simp] theorem poke_f (s : State) (a : Word) (n : Nat) (v : Word) : (s.poke a n v).f = s.f := by simp [State.poke]
@[simp] theorem poke_pc (s : State) (a : Word) (n : Nat) (v : Word) : (s.poke a n v).pc = s.pc := by simp [State.poke]
@[simp] theorem poke_priv (s : State) (a : Word) (n : Nat) (v : Word) : (s.poke a n v).priv = s.priv := by simp [State.poke]
@[simp] theorem poke_fflags (s : State) (a : Word) (n : Nat) (v : Word) : (s.poke a n v).fflags = s.fflags := by simp [State.poke]
@[simp] theorem poke_frm (s : State) (a : Word) (n : Nat) (v : Word) : (s.poke a n v).frm = s.frm := by simp [State.poke]
@[simp] theorem poke_mstatus (s : State) (a : Word) (n : Nat) (v : Word) : (s.poke a n v).mstatus = s.mstatus := by simp [State.poke]
@[simp] theorem poke_mtvec (s : State) (a : Word) (n : Nat) (v : Word) : (s.poke a n v).mtvec = s.mtvec := by simp [State.poke]
@[simp] theorem poke_mscratch (s : State) (a : Word) (n : Nat) (v : Word) : (s.poke a n v).mscratch = s.mscratch := by simp [State.poke]
@[simp] theorem poke_mepc (s : State) (a : Word) (n : Nat) (v : Word) : (s.poke a n v).mepc = s.mepc := by simp [State.poke]
@[simp] theorem poke_mcause (s : State) (a : Word) (n : Nat) (v : Word) : (s.poke a n v).mcause = s.mcause := by simp [State.poke]
@[simp] theorem poke_mtval (s : State) (a : Word) (n : Nat) (v : Word) : (s.poke a n v).mtval = s.mtval := by simp [State.poke]
@[simp] theorem poke_stvec (s : State) (a : Word) (n : Nat) (v : Word) : (s.poke a n v).stvec = s.stvec := by simp [State.poke]
@[simp] theorem poke_sscratch (s : State) (a : Word) (n : Nat) (v : Word) : (s.poke a n v).sscratch = s.sscratch := by simp [State.poke]
@[simp] theorem poke_sepc (s : State) (a : Word) (n : Nat) (v : Word) : (s.poke a n v).sepc = s.sepc := by simp [State.poke]
@[simp] theorem poke_scause (s : State) (a : Word) (n : Nat) (v : Word) : (s.poke a n v).scause = s.scause := by simp [State.poke]
@[simp] theorem poke_stval (s : State) (a : Word) (n : Nat) (v : Word) : (s.poke a n v).stval = s.stval := by simp [State.poke]
@[simp] theorem poke_jvt (s : State) (a : Word) (n : Nat) (v : Word) : (s.poke a n v).jvt = s.jvt := by simp [State.poke]
@[simp] theorem poke_reservation (s : State) (a : Word) (n : Nat) (v : Word) : (s.poke a n v).reservation = s.reservation := by simp [State.poke]
@[simp] theorem poke_draws (s : State) (a : Word) (n : Nat) (v : Word) : (s.poke a n v).draws = s.draws := by simp [State.poke]

/-! `State.placeBytes` changes only mem, stale. -/

@[simp] theorem placeBytes_cfg (s : State) (l : List (Nat × Byte)) : (s.placeBytes l).cfg = s.cfg := by
  induction l generalizing s with
  | nil => rfl
  | cons p rest ih => simp [State.placeBytes, ih]
@[simp] theorem placeBytes_x (s : State) (l : List (Nat × Byte)) : (s.placeBytes l).x = s.x := by
  induction l generalizing s with
  | nil => rfl
  | cons p rest ih => simp [State.placeBytes, ih]
@[simp] theorem placeBytes_f (s : State) (l : List (Nat × Byte)) : (s.placeBytes l).f = s.f := by
  induction l generalizing s with
  | nil => rfl
  | cons p rest ih => simp [State.placeBytes, ih]
@[simp] theorem placeBytes_pc (s : State) (l : List (Nat × Byte)) : (s.placeBytes l).pc = s.pc := by
  induction l generalizing s with
  | nil => rfl
  | cons p rest ih => simp [State.placeBytes, ih]
@[simp] theorem placeBytes_priv (s : State) (l : List (Nat × Byte)) : (s.placeBytes l).priv = s.priv := by
  induction l generalizing s with
  | nil => rfl
  | cons p rest ih => simp [State.placeBytes, ih]
@[simp] theorem placeBytes_fflags (s : State) (l : List (Nat × Byte)) : (s.placeBytes l).fflags = s.fflags := by
  induction l generalizing s with
  | nil => rfl
  | cons p rest ih => simp [State.placeBytes, ih]
@[simp] theorem placeBytes_frm (s : State) (l : List (Nat × Byte)) : (s.placeBytes l).frm = s.frm := by
  induction l generalizing s with
  | nil => rfl
  | cons p rest ih => simp [State.placeBytes, ih]
@[simp] theorem placeBytes_mstatus (s : State) (l : List (Nat × Byte)) : (s.placeBytes l).mstatus = s.mstatus := by
  induction l generalizing s with
  | nil => rfl
  | cons p rest ih => simp [State.placeBytes, ih]
@[simp] theorem placeBytes_mtvec (s : State) (l : List (Nat × Byte)) : (s.placeBytes l).mtvec = s.mtvec := by
  induction l generalizing s with
  | nil => rfl
  | cons p rest ih => simp [State.placeBytes, ih]
@[simp] theorem placeBytes_mscratch (s : State) (l : List (Nat × Byte)) : (s.placeBytes l).mscratch = s.mscratch := by
  induction l generalizing s with
  | nil => rfl
  | cons p rest ih => simp [State.placeBytes, ih]
@[simp] theorem placeBytes_mepc (s : State) (l : List (Nat × Byte)) : (s.placeBytes l).mepc = s.mepc := by
  induction l generalizing s with
  | nil => rfl
  | cons p rest ih => simp [State.placeBytes, ih]
@[simp] theorem placeBytes_mcause (s : State) (l : List (Nat × Byte)) : (s.placeBytes l).mcause = s.mcause := by
  induction l generalizing s with
  | nil => rfl
  | cons p rest ih => simp [State.placeBytes, ih]
@[simp] theorem placeBytes_mtval (s : State) (l : List (Nat × Byte)) : (s.placeBytes l).mtval = s.mtval := by
  induction l generalizing s with
  | nil => rfl
  | cons p rest ih => simp [State.placeBytes, ih]
@[simp] theorem placeBytes_stvec (s : State) (l : List (Nat × Byte)) : (s.placeBytes l).stvec = s.stvec := by
  induction l generalizing s with
  | nil => rfl
  | cons p rest ih => simp [State.placeBytes, ih]
@[simp] theorem placeBytes_sscratch (s : State) (l : List (Nat × Byte)) : (s.placeBytes l).sscratch = s.sscratch := by
  induction l generalizing s with
  | nil => rfl
  | cons p rest ih => simp [State.placeBytes, ih]
@[simp] theorem placeBytes_sepc (s : State) (l : List (Nat × Byte)) : (s.placeBytes l).sepc = s.sepc := by
  induction l generalizing s with
  | nil => rfl
  | cons p rest ih => simp [State.placeBytes, ih]
@[simp] theorem placeBytes_scause (s : State) (l : List (Nat × Byte)) : (s.placeBytes l).scause = s.scause := by
  induction l generalizing s with
  | nil => rfl
  | cons p rest ih => simp [State.placeBytes, ih]
@[simp] theorem placeBytes_stval (s : State) (l : List (Nat × Byte)) : (s.placeBytes l).stval = s.stval := by
  induction l generalizing s with
  | nil => rfl
  | cons p rest ih => simp [State.placeBytes, ih]
@[simp] theorem placeBytes_jvt (s : State) (l : List (Nat × Byte)) : (s.placeBytes l).jvt = s.jvt := by
  induction l generalizing s with
  | nil => rfl
  | cons p rest ih => simp [State.placeBytes, ih]
@[simp] theorem placeBytes_reservation (s : State) (l : List (Nat × Byte)) : (s.placeBytes l).reservation = s.reservation := by
  induction l generalizing s with
  | nil => rfl
  | cons p rest ih => simp [State.placeBytes, ih]
@[simp] theorem placeBytes_draws (s : State) (l : List (Nat × Byte)) : (s.placeBytes l).draws = s.draws := by
  induction l generalizing s with
  | nil => rfl
  | cons p rest ih => simp [State.placeBytes, ih]

/-! `State.mayLoseReservation` changes only reservation, draws. -/

@[simp] theorem mayLoseReservation_cfg (s : State) : (s.mayLoseReservation).cfg = s.cfg := by
  unfold State.mayLoseReservation
  split
  · rfl
  · split <;> rfl
@[simp] theorem mayLoseReservation_x (s : State) : (s.mayLoseReservation).x = s.x := by
  unfold State.mayLoseReservation
  split
  · rfl
  · split <;> rfl
@[simp] theorem mayLoseReservation_f (s : State) : (s.mayLoseReservation).f = s.f := by
  unfold State.mayLoseReservation
  split
  · rfl
  · split <;> rfl
@[simp] theorem mayLoseReservation_pc (s : State) : (s.mayLoseReservation).pc = s.pc := by
  unfold State.mayLoseReservation
  split
  · rfl
  · split <;> rfl
@[simp] theorem mayLoseReservation_priv (s : State) : (s.mayLoseReservation).priv = s.priv := by
  unfold State.mayLoseReservation
  split
  · rfl
  · split <;> rfl
@[simp] theorem mayLoseReservation_fflags (s : State) : (s.mayLoseReservation).fflags = s.fflags := by
  unfold State.mayLoseReservation
  split
  · rfl
  · split <;> rfl
@[simp] theorem mayLoseReservation_frm (s : State) : (s.mayLoseReservation).frm = s.frm := by
  unfold State.mayLoseReservation
  split
  · rfl
  · split <;> rfl
@[simp] theorem mayLoseReservation_mstatus (s : State) : (s.mayLoseReservation).mstatus = s.mstatus := by
  unfold State.mayLoseReservation
  split
  · rfl
  · split <;> rfl
@[simp] theorem mayLoseReservation_mtvec (s : State) : (s.mayLoseReservation).mtvec = s.mtvec := by
  unfold State.mayLoseReservation
  split
  · rfl
  · split <;> rfl
@[simp] theorem mayLoseReservation_mscratch (s : State) : (s.mayLoseReservation).mscratch = s.mscratch := by
  unfold State.mayLoseReservation
  split
  · rfl
  · split <;> rfl
@[simp] theorem mayLoseReservation_mepc (s : State) : (s.mayLoseReservation).mepc = s.mepc := by
  unfold State.mayLoseReservation
  split
  · rfl
  · split <;> rfl
@[simp] theorem mayLoseReservation_mcause (s : State) : (s.mayLoseReservation).mcause = s.mcause := by
  unfold State.mayLoseReservation
  split
  · rfl
  · split <;> rfl
@[simp] theorem mayLoseReservation_mtval (s : State) : (s.mayLoseReservation).mtval = s.mtval := by
  unfold State.mayLoseReservation
  split
  · rfl
  · split <;> rfl
@[simp] theorem mayLoseReservation_stvec (s : State) : (s.mayLoseReservation).stvec = s.stvec := by
  unfold State.mayLoseReservation
  split
  · rfl
  · split <;> rfl
@[simp] theorem mayLoseReservation_sscratch (s : State) : (s.mayLoseReservation).sscratch = s.sscratch := by
  unfold State.mayLoseReservation
  split
  · rfl
  · split <;> rfl
@[simp] theorem mayLoseReservation_sepc (s : State) : (s.mayLoseReservation).sepc = s.sepc := by
  unfold State.mayLoseReservation
  split
  · rfl
  · split <;> rfl
@[simp] theorem mayLoseReservation_scause (s : State) : (s.mayLoseReservation).scause = s.scause := by
  unfold State.mayLoseReservation
  split
  · rfl
  · split <;> rfl
@[simp] theorem mayLoseReservation_stval (s : State) : (s.mayLoseReservation).stval = s.stval := by
  unfold State.mayLoseReservation
  split
  · rfl
  · split <;> rfl
@[simp] theorem mayLoseReservation_jvt (s : State) : (s.mayLoseReservation).jvt = s.jvt := by
  unfold State.mayLoseReservation
  split
  · rfl
  · split <;> rfl
@[simp] theorem mayLoseReservation_stale (s : State) : (s.mayLoseReservation).stale = s.stale := by
  unfold State.mayLoseReservation
  split
  · rfl
  · split <;> rfl
@[simp] theorem mayLoseReservation_mem (s : State) : (s.mayLoseReservation).mem = s.mem := by
  unfold State.mayLoseReservation
  split
  · rfl
  · split <;> rfl

/-! `State.enterTrap` changes only pc, priv, mstatus, mepc, mcause, mtval, reservation, draws. -/

@[simp] theorem enterTrap_cfg (s : State) (c : Exc) (v : Word) : (s.enterTrap c v).cfg = s.cfg := by simp [State.enterTrap]
@[simp] theorem enterTrap_x (s : State) (c : Exc) (v : Word) : (s.enterTrap c v).x = s.x := by simp [State.enterTrap]
@[simp] theorem enterTrap_f (s : State) (c : Exc) (v : Word) : (s.enterTrap c v).f = s.f := by simp [State.enterTrap]
@[simp] theorem enterTrap_fflags (s : State) (c : Exc) (v : Word) : (s.enterTrap c v).fflags = s.fflags := by simp [State.enterTrap]
@[simp] theorem enterTrap_frm (s : State) (c : Exc) (v : Word) : (s.enterTrap c v).frm = s.frm := by simp [State.enterTrap]
@[simp] theorem enterTrap_mtvec (s : State) (c : Exc) (v : Word) : (s.enterTrap c v).mtvec = s.mtvec := by simp [State.enterTrap]
@[simp] theorem enterTrap_mscratch (s : State) (c : Exc) (v : Word) : (s.enterTrap c v).mscratch = s.mscratch := by simp [State.enterTrap]
@[simp] theorem enterTrap_stvec (s : State) (c : Exc) (v : Word) : (s.enterTrap c v).stvec = s.stvec := by simp [State.enterTrap]
@[simp] theorem enterTrap_sscratch (s : State) (c : Exc) (v : Word) : (s.enterTrap c v).sscratch = s.sscratch := by simp [State.enterTrap]
@[simp] theorem enterTrap_sepc (s : State) (c : Exc) (v : Word) : (s.enterTrap c v).sepc = s.sepc := by simp [State.enterTrap]
@[simp] theorem enterTrap_scause (s : State) (c : Exc) (v : Word) : (s.enterTrap c v).scause = s.scause := by simp [State.enterTrap]
@[simp] theorem enterTrap_stval (s : State) (c : Exc) (v : Word) : (s.enterTrap c v).stval = s.stval := by simp [State.enterTrap]
@[simp] theorem enterTrap_jvt (s : State) (c : Exc) (v : Word) : (s.enterTrap c v).jvt = s.jvt := by simp [State.enterTrap]
@[simp] theorem enterTrap_stale (s : State) (c : Exc) (v : Word) : (s.enterTrap c v).stale = s.stale := by simp [State.enterTrap]
@[simp] theorem enterTrap_mem (s : State) (c : Exc) (v : Word) : (s.enterTrap c v).mem = s.mem := by simp [State.enterTrap]

/-! `State.returnFromM` changes only pc, priv, mstatus, reservation, draws. -/

@[simp] theorem returnFromM_cfg (s : State) : (s.returnFromM).cfg = s.cfg := by simp [State.returnFromM]
@[simp] theorem returnFromM_x (s : State) : (s.returnFromM).x = s.x := by simp [State.returnFromM]
@[simp] theorem returnFromM_f (s : State) : (s.returnFromM).f = s.f := by simp [State.returnFromM]
@[simp] theorem returnFromM_fflags (s : State) : (s.returnFromM).fflags = s.fflags := by simp [State.returnFromM]
@[simp] theorem returnFromM_frm (s : State) : (s.returnFromM).frm = s.frm := by simp [State.returnFromM]
@[simp] theorem returnFromM_mtvec (s : State) : (s.returnFromM).mtvec = s.mtvec := by simp [State.returnFromM]
@[simp] theorem returnFromM_mscratch (s : State) : (s.returnFromM).mscratch = s.mscratch := by simp [State.returnFromM]
@[simp] theorem returnFromM_mepc (s : State) : (s.returnFromM).mepc = s.mepc := by simp [State.returnFromM]
@[simp] theorem returnFromM_mcause (s : State) : (s.returnFromM).mcause = s.mcause := by simp [State.returnFromM]
@[simp] theorem returnFromM_mtval (s : State) : (s.returnFromM).mtval = s.mtval := by simp [State.returnFromM]
@[simp] theorem returnFromM_stvec (s : State) : (s.returnFromM).stvec = s.stvec := by simp [State.returnFromM]
@[simp] theorem returnFromM_sscratch (s : State) : (s.returnFromM).sscratch = s.sscratch := by simp [State.returnFromM]
@[simp] theorem returnFromM_sepc (s : State) : (s.returnFromM).sepc = s.sepc := by simp [State.returnFromM]
@[simp] theorem returnFromM_scause (s : State) : (s.returnFromM).scause = s.scause := by simp [State.returnFromM]
@[simp] theorem returnFromM_stval (s : State) : (s.returnFromM).stval = s.stval := by simp [State.returnFromM]
@[simp] theorem returnFromM_jvt (s : State) : (s.returnFromM).jvt = s.jvt := by simp [State.returnFromM]
@[simp] theorem returnFromM_stale (s : State) : (s.returnFromM).stale = s.stale := by simp [State.returnFromM]
@[simp] theorem returnFromM_mem (s : State) : (s.returnFromM).mem = s.mem := by simp [State.returnFromM]

/-! `State.returnFromS` changes only pc, priv, mstatus, reservation, draws. -/

@[simp] theorem returnFromS_cfg (s : State) : (s.returnFromS).cfg = s.cfg := by simp [State.returnFromS]
@[simp] theorem returnFromS_x (s : State) : (s.returnFromS).x = s.x := by simp [State.returnFromS]
@[simp] theorem returnFromS_f (s : State) : (s.returnFromS).f = s.f := by simp [State.returnFromS]
@[simp] theorem returnFromS_fflags (s : State) : (s.returnFromS).fflags = s.fflags := by simp [State.returnFromS]
@[simp] theorem returnFromS_frm (s : State) : (s.returnFromS).frm = s.frm := by simp [State.returnFromS]
@[simp] theorem returnFromS_mtvec (s : State) : (s.returnFromS).mtvec = s.mtvec := by simp [State.returnFromS]
@[simp] theorem returnFromS_mscratch (s : State) : (s.returnFromS).mscratch = s.mscratch := by simp [State.returnFromS]
@[simp] theorem returnFromS_mepc (s : State) : (s.returnFromS).mepc = s.mepc := by simp [State.returnFromS]
@[simp] theorem returnFromS_mcause (s : State) : (s.returnFromS).mcause = s.mcause := by simp [State.returnFromS]
@[simp] theorem returnFromS_mtval (s : State) : (s.returnFromS).mtval = s.mtval := by simp [State.returnFromS]
@[simp] theorem returnFromS_stvec (s : State) : (s.returnFromS).stvec = s.stvec := by simp [State.returnFromS]
@[simp] theorem returnFromS_sscratch (s : State) : (s.returnFromS).sscratch = s.sscratch := by simp [State.returnFromS]
@[simp] theorem returnFromS_sepc (s : State) : (s.returnFromS).sepc = s.sepc := by simp [State.returnFromS]
@[simp] theorem returnFromS_scause (s : State) : (s.returnFromS).scause = s.scause := by simp [State.returnFromS]
@[simp] theorem returnFromS_stval (s : State) : (s.returnFromS).stval = s.stval := by simp [State.returnFromS]
@[simp] theorem returnFromS_jvt (s : State) : (s.returnFromS).jvt = s.jvt := by simp [State.returnFromS]
@[simp] theorem returnFromS_stale (s : State) : (s.returnFromS).stale = s.stale := by simp [State.returnFromS]
@[simp] theorem returnFromS_mem (s : State) : (s.returnFromS).mem = s.mem := by simp [State.returnFromS]

/-! `State.scDrawn` changes only draws. -/

@[simp] theorem scDrawn_cfg (s : State) (a : Word) (n : Nat) : (s.scDrawn a n).cfg = s.cfg := by unfold State.scDrawn; split <;> rfl
@[simp] theorem scDrawn_x (s : State) (a : Word) (n : Nat) : (s.scDrawn a n).x = s.x := by unfold State.scDrawn; split <;> rfl
@[simp] theorem scDrawn_f (s : State) (a : Word) (n : Nat) : (s.scDrawn a n).f = s.f := by unfold State.scDrawn; split <;> rfl
@[simp] theorem scDrawn_pc (s : State) (a : Word) (n : Nat) : (s.scDrawn a n).pc = s.pc := by unfold State.scDrawn; split <;> rfl
@[simp] theorem scDrawn_priv (s : State) (a : Word) (n : Nat) : (s.scDrawn a n).priv = s.priv := by unfold State.scDrawn; split <;> rfl
@[simp] theorem scDrawn_fflags (s : State) (a : Word) (n : Nat) : (s.scDrawn a n).fflags = s.fflags := by unfold State.scDrawn; split <;> rfl
@[simp] theorem scDrawn_frm (s : State) (a : Word) (n : Nat) : (s.scDrawn a n).frm = s.frm := by unfold State.scDrawn; split <;> rfl
@[simp] theorem scDrawn_mstatus (s : State) (a : Word) (n : Nat) : (s.scDrawn a n).mstatus = s.mstatus := by unfold State.scDrawn; split <;> rfl
@[simp] theorem scDrawn_mtvec (s : State) (a : Word) (n : Nat) : (s.scDrawn a n).mtvec = s.mtvec := by unfold State.scDrawn; split <;> rfl
@[simp] theorem scDrawn_mscratch (s : State) (a : Word) (n : Nat) : (s.scDrawn a n).mscratch = s.mscratch := by unfold State.scDrawn; split <;> rfl
@[simp] theorem scDrawn_mepc (s : State) (a : Word) (n : Nat) : (s.scDrawn a n).mepc = s.mepc := by unfold State.scDrawn; split <;> rfl
@[simp] theorem scDrawn_mcause (s : State) (a : Word) (n : Nat) : (s.scDrawn a n).mcause = s.mcause := by unfold State.scDrawn; split <;> rfl
@[simp] theorem scDrawn_mtval (s : State) (a : Word) (n : Nat) : (s.scDrawn a n).mtval = s.mtval := by unfold State.scDrawn; split <;> rfl
@[simp] theorem scDrawn_stvec (s : State) (a : Word) (n : Nat) : (s.scDrawn a n).stvec = s.stvec := by unfold State.scDrawn; split <;> rfl
@[simp] theorem scDrawn_sscratch (s : State) (a : Word) (n : Nat) : (s.scDrawn a n).sscratch = s.sscratch := by unfold State.scDrawn; split <;> rfl
@[simp] theorem scDrawn_sepc (s : State) (a : Word) (n : Nat) : (s.scDrawn a n).sepc = s.sepc := by unfold State.scDrawn; split <;> rfl
@[simp] theorem scDrawn_scause (s : State) (a : Word) (n : Nat) : (s.scDrawn a n).scause = s.scause := by unfold State.scDrawn; split <;> rfl
@[simp] theorem scDrawn_stval (s : State) (a : Word) (n : Nat) : (s.scDrawn a n).stval = s.stval := by unfold State.scDrawn; split <;> rfl
@[simp] theorem scDrawn_jvt (s : State) (a : Word) (n : Nat) : (s.scDrawn a n).jvt = s.jvt := by unfold State.scDrawn; split <;> rfl
@[simp] theorem scDrawn_reservation (s : State) (a : Word) (n : Nat) : (s.scDrawn a n).reservation = s.reservation := by unfold State.scDrawn; split <;> rfl
@[simp] theorem scDrawn_stale (s : State) (a : Word) (n : Nat) : (s.scDrawn a n).stale = s.stale := by unfold State.scDrawn; split <;> rfl
@[simp] theorem scDrawn_mem (s : State) (a : Word) (n : Nat) : (s.scDrawn a n).mem = s.mem := by unfold State.scDrawn; split <;> rfl

/-! What the updates that change a field make it. -/

@[simp] theorem advance_pc (s : State) (n : Nat) : (s.advance n).pc = cut s.cfg.xlen (s.pc + BitVec.ofNat 64 n) := rfl
@[simp] theorem drawn_draws (s : State) : s.drawn.draws = s.draws + 1 := rfl
@[simp] theorem enterTrap_pc (s : State) (c : Exc) (v : Word) : (s.enterTrap c v).pc = s.handler := rfl
@[simp] theorem enterTrap_priv (s : State) (c : Exc) (v : Word) : (s.enterTrap c v).priv = .M := rfl
@[simp] theorem enterTrap_mepc (s : State) (c : Exc) (v : Word) : (s.enterTrap c v).mepc = epcValue s.cfg s.pc := rfl
@[simp] theorem enterTrap_mcause (s : State) (c : Exc) (v : Word) : (s.enterTrap c v).mcause = c.code := rfl
@[simp] theorem enterTrap_mtval (s : State) (c : Exc) (v : Word) : (s.enterTrap c v).mtval = cut s.cfg.xlen v := rfl
@[simp] theorem enterTrap_mstatus (s : State) (c : Exc) (v : Word) :
    (s.enterTrap c v).mstatus = { s.mstatus with mpie := s.mstatus.mie, mie := false, mpp := s.priv } := rfl
@[simp] theorem writeX_pc (s : State) (n : Nat) (r : RegIdx) (v : Word) :
    (s.writeX n r v).pc = cut s.cfg.xlen (s.pc + BitVec.ofNat 64 n) := by simp [State.writeX]
@[simp] theorem writeX_x (s : State) (n : Nat) (r : RegIdx) (v : Word) : (s.writeX n r v).x = (s.setX r v).x := rfl
@[simp] theorem orFlags_fflags (s : State) (fl : FpFlags) : (s.orFlags fl).fflags = s.fflags ||| fl := rfl
@[simp] theorem writeFp_fflags (s : State) (fmt : FloatFormat) (r : RegIdx) (res : Word × FpFlags) :
    (s.writeFp fmt r res).fflags = s.fflags ||| res.2 := by simp [State.writeFp]
@[simp] theorem writeInt_fflags (s : State) (r : RegIdx) (v : Word) (fl : FpFlags) :
    (s.writeInt r v fl).fflags = s.fflags ||| fl := by simp [State.writeInt]

/-- Turning the floating-point unit Dirty touches nothing of mstatus but FS (10_state.md R34). -/
theorem dirtyFs_mstatus (s : State) :
    s.dirtyFs.mstatus = { s.mstatus with fs := if s.cfg.trapDelivery = .machine then 3#2 else s.mstatus.fs } := by
  unfold State.dirtyFs
  cases h : s.cfg.trapDelivery <;> simp

/-- A reservation after a trap or a return is the one before or none (20_memory.md R81). -/
theorem mayLoseReservation_reservation (s : State) :
    s.mayLoseReservation.reservation = s.reservation ∨ s.mayLoseReservation.reservation = none := by
  unfold State.mayLoseReservation
  split
  · exact .inl rfl
  · split
    · exact .inl rfl
    · exact .inr rfl

end Sys2Proof.Machine
end

