-- ==== Sys2Proof/Laws/Memory.lean ====
section
/-! SUPPORT. Memory and the fetch-coherence set: read after write, and the canonical form of both, kept by every operation. -/

namespace Sys2Proof.Machine

/-- A byte reads what was last written to it (20_memory.md R70). -/
@[simp] theorem get?_set_same (m : Memory) (a : Nat) (v : Byte) : Memory.get? (Memory.set m a v) a = some v := by
  induction m with
  | nil => simp [Memory.set, Memory.get?]
  | cons c rest ih =>
    obtain ⟨b, w⟩ := c
    unfold Memory.set
    split
    · simp [Memory.get?]
    · split
      · simp [Memory.get?]
      · simp [Memory.get?, *]

/-- A write leaves every other byte (20_memory.md R70). -/
theorem get?_set_ne (m : Memory) {a b : Nat} (v : Byte) (h : b ≠ a) : Memory.get? (Memory.set m a v) b = Memory.get? m b := by
  induction m with
  | nil => simp [Memory.set, Memory.get?, h]
  | cons c rest ih =>
    obtain ⟨d, w⟩ := c
    unfold Memory.set
    split
    · simp [Memory.get?, h]
    · split
      · next _ h2 => subst h2; simp [Memory.get?, h]
      · simp [Memory.get?, ih]

/-- The addresses a memory lists after a write. -/
theorem mem_set {m : Memory} {a : Nat} {v : Byte} {c : Host.Cell} (h : c ∈ Memory.set m a v) : c = (a, v) ∨ c ∈ m := by
  induction m with
  | nil => simpa [Memory.set] using h
  | cons d rest ih =>
    obtain ⟨b, w⟩ := d
    unfold Memory.set at h
    split at h
    · simpa using h
    · split at h
      · rcases List.mem_cons.1 h with h | h
        · exact .inl h
        · exact .inr (List.mem_cons_of_mem _ h)
      · rcases List.mem_cons.1 h with h | h
        · exact .inr (h ▸ List.mem_cons_self)
        · exact (ih h).imp id (List.mem_cons_of_mem _)

/-- A write keeps the canonical form. -/
theorem set_wf {m : Memory} (h : Memory.wf m) (a : Nat) (v : Byte) : Memory.wf (Memory.set m a v) := by
  induction m with
  | nil => simp [Memory.set, Memory.wf]
  | cons d rest ih =>
    obtain ⟨b, w⟩ := d
    obtain ⟨hb, hr⟩ := List.pairwise_cons.1 h
    unfold Memory.set
    split
    · next hab =>
      refine List.pairwise_cons.2 ⟨?_, h⟩
      intro c hc
      rcases List.mem_cons.1 hc with rfl | hc
      · exact hab
      · exact Nat.lt_trans hab (hb c hc)
    · split
      · next _ hab =>
        subst hab
        exact List.pairwise_cons.2 ⟨hb, hr⟩
      · next h1 h2 =>
        refine List.pairwise_cons.2 ⟨?_, ih hr⟩
        intro c hc
        rcases mem_set hc with rfl | hc
        · show b < a
          omega
        · exact hb c hc

/-- A byte has a value exactly when its address is listed. -/
theorem get?_isSome {m : Memory} {a : Nat} : (Memory.get? m a).isSome ↔ ∃ c ∈ m, c.1 = a := by
  induction m with
  | nil => simp [Memory.get?]
  | cons d rest ih =>
    obtain ⟨b, w⟩ := d
    unfold Memory.get?
    split
    · next h => subst h; simp
    · next h =>
      rw [ih]
      simp only [List.mem_cons, exists_eq_or_imp]
      constructor
      · exact .inr
      · rintro (h' | h')
        · exact absurd h'.symm h
        · exact h'

/-- The addresses in the fetch-coherence set after one is added (10_state.md R42). -/
@[simp] theorem mem_staleInsert {l : List Nat} {a b : Nat} : b ∈ staleInsert l a ↔ b = a ∨ b ∈ l := by
  induction l with
  | nil => simp [staleInsert]
  | cons d rest ih =>
    unfold staleInsert
    split
    · simp
    · split
      · next _ h => subst h; simp
      · simp only [List.mem_cons, ih]
        tauto

/-- Adding an address keeps the set strictly rising. -/
theorem staleInsert_sorted {l : List Nat} (h : l.Pairwise (fun a b => a < b)) (a : Nat) :
    (staleInsert l a).Pairwise (fun a b => a < b) := by
  induction l with
  | nil => simp [staleInsert]
  | cons d rest ih =>
    obtain ⟨hd, hr⟩ := List.pairwise_cons.1 h
    unfold staleInsert
    split
    · next hab =>
      refine List.pairwise_cons.2 ⟨?_, h⟩
      intro c hc
      rcases List.mem_cons.1 hc with rfl | hc
      · exact hab
      · exact Nat.lt_trans hab (hd c hc)
    · split
      · exact h
      · refine List.pairwise_cons.2 ⟨?_, ih hr⟩
        intro c hc
        rcases mem_staleInsert.1 hc with rfl | hc
        · omega
        · exact hd c hc

/-- Storing bytes keeps the canonical form. -/
theorem putBytes_wf {s : State} (h : Memory.wf s.mem) (l : List (Nat × Byte)) : Memory.wf (s.putBytes l).mem := by
  induction l generalizing s with
  | nil => exact h
  | cons p rest ih => exact ih (set_wf h _ _)

/-- Storing the bytes of a value keeps the canonical form. -/
theorem poke_wf {s : State} (h : Memory.wf s.mem) (a : Word) (n : Nat) (v : Word) : Memory.wf (s.poke a n v).mem :=
  putBytes_wf h _

/-- Placing bytes from outside keeps the canonical form. -/
theorem placeBytes_wf {s : State} (h : Memory.wf s.mem) (l : List (Nat × Byte)) : Memory.wf (s.placeBytes l).mem := by
  induction l generalizing s with
  | nil => exact h
  | cons p rest ih => exact ih (set_wf h _ _)

/-- The memory after reset is in canonical form. -/
theorem resetWith_wf (cfg : Config) : Memory.wf (State.resetWith cfg).mem := by simp [State.resetWith, Memory.wf]

/-- Storing bytes leaves every address that is not among them (20_memory.md R70). -/
theorem putBytes_get?_ne (s : State) (l : List (Nat × Byte)) {b : Nat} (h : ∀ p ∈ l, b ≠ p.1) :
    Memory.get? (s.putBytes l).mem b = Memory.get? s.mem b := by
  induction l generalizing s with
  | nil => rfl
  | cons p rest ih =>
    obtain ⟨a, v⟩ := p
    unfold State.putBytes
    rw [ih _ (fun q hq => h q (List.mem_cons_of_mem _ hq))]
    exact get?_set_ne _ _ (h (a, v) List.mem_cons_self)

/-- Storing the bytes of a value leaves every address outside them (20_memory.md R61). -/
theorem poke_get?_ne (s : State) (a : Word) (n : Nat) (v : Word) {b : Nat} (h : b ∉ accessAddrs s.cfg.xlen a n) :
    Memory.get? (s.poke a n v).mem b = Memory.get? s.mem b := by
  refine putBytes_get?_ne s _ ?_
  rintro ⟨c, w⟩ hp rfl
  exact h (List.of_mem_zip hp).1

/-- Every byte stored to is in the fetch-coherence set, and no other is added (10_state.md R42). -/
theorem putBytes_stale (s : State) (l : List (Nat × Byte)) (b : Nat) :
    b ∈ (s.putBytes l).stale ↔ b ∈ s.stale ∨ b ∈ l.map Prod.fst := by
  induction l generalizing s with
  | nil => simp [State.putBytes]
  | cons p rest ih =>
    obtain ⟨a, v⟩ := p
    unfold State.putBytes
    rw [ih]
    simp only [mem_staleInsert, List.map_cons, List.mem_cons]
    tauto

/-- Reading bytes gives the value of each, or stops at the first that has none (10_state.md R45). -/
theorem readBytes_ok {m : Memory} {l : List Nat} {bs : List Byte} (h : readBytes m l = .ok bs) :
    bs.length = l.length ∧ ∀ a ∈ l, (Memory.get? m a).isSome := by
  induction l generalizing bs with
  | nil => simp [readBytes] at h; subst h; simp
  | cons a rest ih =>
    unfold readBytes at h
    split at h
    · cases h
    · next b hb =>
      split at h
      · cases h
      · next bs' hbs =>
        cases h
        obtain ⟨h1, h2⟩ := ih hbs
        refine ⟨by simp [h1], ?_⟩
        intro c hc
        rcases List.mem_cons.1 hc with rfl | hc
        · simp [hb]
        · exact h2 c hc

/-- Reading bytes stops only at a byte that has no value (10_state.md R45). -/
theorem readBytes_error {m : Memory} {l : List Nat} {e : Stop} (h : readBytes m l = .error e) :
    ∃ a ∈ l, Memory.get? m a = none ∧ e = .fault (.readOfUnspecified a) := by
  induction l with
  | nil => simp [readBytes] at h
  | cons a rest ih =>
    unfold readBytes at h
    split at h
    · next hn =>
      cases h
      exact ⟨a, List.mem_cons_self, hn, rfl⟩
    · split at h
      · next e' he =>
        cases h
        obtain ⟨b, hb, h1, h2⟩ := ih he
        exact ⟨b, List.mem_cons_of_mem _ hb, h1, h2⟩
      · cases h

/-- Reading bytes stops at the first that has no value (10_state.md R45). -/
theorem readBytes_first {m : Memory} {pre post : List Nat} {a : Nat} (hp : ∀ b ∈ pre, Memory.get? m b ≠ none)
    (ha : Memory.get? m a = none) : readBytes m (pre ++ a :: post) = .error (.fault (.readOfUnspecified a)) := by
  induction pre with
  | nil => simp [readBytes, ha]
  | cons b rest ih =>
    obtain ⟨hb, hr⟩ := List.forall_mem_cons.1 hp
    obtain ⟨v, hv⟩ := Option.ne_none_iff_exists'.1 hb
    simp [readBytes, hv, ih hr]

end Sys2Proof.Machine
end

