-- ==== Sys2Proof/Laws/Registers.lean ====
section
/-! SUPPORT. Reading a register after writing one, and the widths of what registers hold. -/

namespace Sys2Proof.Machine

@[simp] theorem cut_cut (xlen : Xlen) (w : Word) : cut xlen (cut xlen w) = cut xlen w := by
  cases xlen <;> simp [cut]

@[simp] theorem cut_zero (xlen : Xlen) : cut xlen 0#64 = 0#64 := by cases xlen <;> rfl

@[simp] theorem cutF_cutF (ext : Ext) (w : Word) : cutF ext (cutF ext w) = cutF ext w := by
  unfold cutF
  split <;> simp_all

/-- A cut value has XLEN bits. -/
theorem cut_lt (xlen : Xlen) (w : Word) : (cut xlen w).toNat < 2 ^ xlen.bits := by
  cases xlen
  · simp only [cut, Xlen.bits, BitVec.toNat_setWidth]
    omega
  · simpa [cut, Xlen.bits] using w.isLt

/-- A value of XLEN bits is its own cut. -/
theorem cut_of_lt {xlen : Xlen} {w : Word} (h : w.toNat < 2 ^ xlen.bits) : cut xlen w = w := by
  cases xlen
  · apply BitVec.eq_of_toNat_eq
    simp only [cut, Xlen.bits, BitVec.toNat_setWidth] at *
    omega
  · rfl

/-- A cut value has FLEN bits. -/
theorem cutF_lt (ext : Ext) (w : Word) : (cutF ext w).toNat < 2 ^ ext.flen := by
  unfold cutF Ext.flen
  split
  · simpa using w.isLt
  · simp only [BitVec.toNat_setWidth]
    omega

/-- x0 reads zero (10_state.md R21). -/
@[simp] theorem getX_zero (s : State) : s.getX 0#5 = 0#64 := rfl

/-- A write to x0 is discarded (10_state.md R21). -/
@[simp] theorem setX_zero (s : State) (v : Word) : s.setX 0#5 v = s := rfl

/-- A register reads the value last written to it, cut to XLEN bits (10_state.md R20). -/
theorem getX_setX_same (s : State) {r : RegIdx} (v : Word) (h : r ≠ 0#5) : (s.setX r v).getX r = cut s.cfg.xlen v := by
  simp [State.getX, State.setX, h]

/-- A write to one integer register leaves every other one (10_state.md R20). -/
theorem getX_setX_ne (s : State) {r q : RegIdx} (v : Word) (h : q ≠ r) : (s.setX r v).getX q = s.getX q := by
  have hn : r.toNat ≠ q.toNat := fun e => h (BitVec.eq_of_toNat_eq e.symm)
  unfold State.getX State.setX
  by_cases h0 : r = 0#5
  · simp [h0]
  · simp [h0, hn]

/-- What a register reads has XLEN bits. -/
theorem getX_lt (s : State) (r : RegIdx) : (s.getX r).toNat < 2 ^ s.cfg.xlen.bits := by
  unfold State.getX
  split
  · simp
  · exact cut_lt _ _

/-- Reading depends on the register file and XLEN only. -/
theorem getX_congr {s t : State} (hx : t.x = s.x) (hc : t.cfg = s.cfg) (r : RegIdx) : t.getX r = s.getX r := by
  simp [State.getX, hx, hc]

@[simp] theorem getX_advance (s : State) (n : Nat) (r : RegIdx) : (s.advance n).getX r = s.getX r := rfl

@[simp] theorem getX_writeX_eq (s : State) (n : Nat) (rd : RegIdx) (v : Word) (r : RegIdx) :
    (s.writeX n rd v).getX r = (s.setX rd v).getX r := rfl

/-- A floating-point register reads the value last written to it, cut to FLEN bits (10_state.md R28). -/
theorem getF_setF_same (s : State) (r : RegIdx) (v : Word) : (s.setF r v).getF r = cutF s.cfg.ext v := by
  simp [State.getF, State.setF]

/-- A write to one floating-point register leaves every other one (10_state.md R28). -/
theorem getF_setF_ne (s : State) {r q : RegIdx} (v : Word) (h : q ≠ r) : (s.setF r v).getF q = s.getF q := by
  have hn : r.toNat ≠ q.toNat := fun e => h (BitVec.eq_of_toNat_eq e.symm)
  simp [State.getF, State.setF, hn]

end Sys2Proof.Machine
end

