-- ==== Sys2Proof/Laws/Ops.lean ====
section
/-! SUPPORT. One lemma per shared operation, saying all it can do. -/

namespace Sys2Proof.Machine

/-- The checks of a data access pass exactly when the access is aligned where it must be and permitted
(60_exceptions.md R611). -/
theorem checkAccess_ok {cfg : Config} {kind : AccessKind} {strict : Bool} {addr : Word} {n : Nat} :
    checkAccess cfg kind strict addr n = .ok () ↔
      (aligned addr n = true ∨ (strict = false ∧ cfg.misaligned = .emulate)) ∧ permitted cfg kind addr n = true := by
  unfold checkAccess
  cases aligned addr n <;> cases strict <;> cases cfg.misaligned <;> cases permitted cfg kind addr n <;> simp

/-- The checks of a data access fail with the exception of the access kind, its value the address (60_exceptions.md R605 to
R608). -/
theorem checkAccess_error {cfg : Config} {kind : AccessKind} {strict : Bool} {addr : Word} {n : Nat} {e : Stop}
    (h : checkAccess cfg kind strict addr n = .error e) :
    e = .exc kind.misaligned addr ∨ e = .exc kind.accessFault addr := by
  unfold checkAccess at h
  split at h
  · cases h; exact .inl rfl
  · split at h
    · cases h; exact .inr rfl
    · cases h

/-- A value read from memory is made of bytes that all have a value (20_memory.md R61). -/
theorem peek_ok {s : State} {addr : Word} {n : Nat} {v : Word} (h : s.peek addr n = .ok v) :
    ∃ bs, readBytes s.mem (accessAddrs s.cfg.xlen addr n) = .ok bs ∧ v = bytesWord bs := by
  unfold State.peek at h
  split at h
  · cases h
  · next bs hbs => cases h; exact ⟨bs, hbs, rfl⟩

/-- A load gives the bytes at the address when its checks pass (20_memory.md R61). -/
theorem load_ok {s : State} {addr : Word} {n : Nat} {v : Word} :
    s.load addr n = .ok v ↔ checkAccess s.cfg .load false addr n = .ok () ∧ s.peek addr n = .ok v := by
  unfold State.load
  split <;> simp_all

/-- A store writes the bytes at the address when its checks pass (20_memory.md R61). -/
theorem store_ok {s t : State} {addr : Word} {n : Nat} {v : Word} :
    s.store addr n v = .ok t ↔ checkAccess s.cfg .store false addr n = .ok () ∧ t = s.poke addr n v := by
  unfold State.store
  split
  · simp_all
  · simp_all [eq_comm]

/-- A store that fails raises an exception; nothing has been written (20_memory.md R61). -/
theorem store_error {s : State} {addr : Word} {n : Nat} {v : Word} {e : Stop} (h : s.store addr n v = .error e) :
    e = .exc .storeAddrMisaligned addr ∨ e = .exc .storeAccessFault addr := by
  unfold State.store at h
  split at h
  · next e' he => cases h; exact checkAccess_error he
  · cases h

/-- An instruction that completes or changes nothing: the next state is the completed one, or the handler is entered under trap
delivery `machine` (60_exceptions.md R612, R614). -/
theorem conclude_next {s t : State} {m : Except Stop State} :
    s.conclude m = .next t ↔
      m = .ok t ∨ ∃ c v, m = .error (.exc c v) ∧ s.cfg.trapDelivery = .machine ∧ t = s.enterTrap c v := by
  rcases m with e | u
  · rcases e with ⟨c, v⟩ | f | r
    · unfold State.conclude State.stop State.takeTrap
      cases h : s.cfg.trapDelivery
      · simp
      · simp only [Host.Outcome.next.injEq, reduceCtorEq, false_or, Except.error.injEq, Stop.exc.injEq]
        constructor
        · rintro rfl; exact ⟨c, v, ⟨rfl, rfl⟩, trivial, rfl⟩
        · rintro ⟨c', v', ⟨rfl, rfl⟩, -, rfl⟩; rfl
    · simp [State.conclude, State.stop]
    · simp [State.conclude, State.stop]
  · simp [State.conclude]

/-- Stopping gives a next state only by entering the handler under trap delivery `machine` (60_exceptions.md R614). -/
theorem stop_next {s t : State} {e : Stop} :
    s.stop e = .next t ↔ ∃ c v, e = .exc c v ∧ s.cfg.trapDelivery = .machine ∧ t = s.enterTrap c v := by
  simpa [State.conclude] using conclude_next (s := s) (t := t) (m := .error e)

/-- Stopping ends the run with a fault of its own, or with the trap to the environment on the state reached (60_exceptions.md R613,
R628). -/
theorem stop_fault {s : State} {e : Stop} {f : Fault} :
    s.stop e = .fault f ↔
      e = .fault f ∨ ∃ c v, e = .exc c v ∧ s.cfg.trapDelivery = .environment ∧ f = .trap c s.pc v s := by
  rcases e with ⟨c, v⟩ | g | r
  · cases h : s.cfg.trapDelivery <;> simp [State.stop, State.takeTrap, h, eq_comm]
  · simp [State.stop]
  · simp [State.stop]

/-- Taking an exception gives a next state only under trap delivery `machine` (60_exceptions.md R613, R614). -/
theorem takeTrap_next {s t : State} {c : Exc} {v : Word} :
    s.takeTrap c v = .next t ↔ s.cfg.trapDelivery = .machine ∧ t = s.enterTrap c v := by
  unfold State.takeTrap
  cases h : s.cfg.trapDelivery <;> simp [eq_comm]

/-- Taking an exception ends the run only under trap delivery `environment`, with the cause, the pc, the value and
the state reached (60_exceptions.md R613). -/
theorem takeTrap_fault {s : State} {c : Exc} {v : Word} {f : Fault} :
    s.takeTrap c v = .fault f ↔ s.cfg.trapDelivery = .environment ∧ f = .trap c s.pc v s := by
  unfold State.takeTrap
  cases h : s.cfg.trapDelivery <;> simp [eq_comm]

/-- A jump happens exactly to an aligned target (60_exceptions.md R601). -/
theorem jumpTo_ok {s t : State} {target : Word} :
    s.jumpTo target = .ok t ↔ target.toNat % s.cfg.ext.ialignBytes = 0 ∧ t = { s with pc := target } := by
  unfold State.jumpTo
  split <;> simp_all [eq_comm]

/-- A jump that does not happen raises instruction-address-misaligned with the target as its value (60_exceptions.md R601). -/
theorem jumpTo_error {s : State} {target : Word} {e : Stop} (h : s.jumpTo target = .error e) :
    e = .exc .instrAddrMisaligned target := by
  unfold State.jumpTo at h
  split at h <;> cases h
  rfl

/-- All a linking jump can do (41_base_memory_control_rv64i.md R198, R199). -/
theorem jumpLink_next {s t : State} {n : Nat} {rd : RegIdx} {target : Word} (h : s.jumpLink n rd target = .next t) :
    (target.toNat % s.cfg.ext.ialignBytes = 0
      ∧ t = ({ s with pc := target } : State).setX rd (effAddr s.cfg.xlen s.pc (BitVec.ofNat 64 n)))
    ∨ (s.cfg.trapDelivery = .machine ∧ t = s.enterTrap .instrAddrMisaligned target) := by
  unfold State.jumpLink at h
  rcases conclude_next.1 h with g | ⟨c, v, g, hm, rfl⟩
  · split at g
    · cases g
    · next u hu =>
      obtain ⟨h1, rfl⟩ := jumpTo_ok.1 hu
      cases g
      exact .inl ⟨h1, rfl⟩
  · split at g
    · next e he =>
      cases g
      cases jumpTo_error he
      exact .inr ⟨hm, rfl⟩
    · cases g

/-- All a branch can do (41_base_memory_control_rv64i.md R200 to R205). -/
theorem branch_next {s t : State} {n : Nat} {cond : Bool} {offset : Word} (h : s.branch n cond offset = .next t) :
    (cond = false ∧ t = s.advance n)
    ∨ (cond = true ∧ t = { s with pc := effAddr s.cfg.xlen s.pc offset })
    ∨ (cond = true ∧ s.cfg.trapDelivery = .machine
        ∧ t = s.enterTrap .instrAddrMisaligned (effAddr s.cfg.xlen s.pc offset)) := by
  unfold State.branch at h
  cases cond
  · simp only [Bool.false_eq_true, if_false, Host.Outcome.next.injEq] at h
    exact .inl ⟨rfl, h.symm⟩
  · simp only [if_true] at h
    rcases conclude_next.1 h with g | ⟨c, v, g, hm, rfl⟩
    · exact .inr (.inl ⟨rfl, (jumpTo_ok.1 g).2⟩)
    · cases jumpTo_error g
      exact .inr (.inr ⟨rfl, hm, rfl⟩)

/-- All a load into an integer register can do: it completes with the bytes read, or takes a load exception. -/
theorem loadX_next {s t : State} {n : Nat} {rd : RegIdx} {addr : Word} {w : Nat} {ext : Word → Word}
    (h : s.loadX n rd addr w ext = .next t) :
    (∃ v, s.load addr w = .ok v ∧ t = s.writeX n rd (ext v))
    ∨ (s.cfg.trapDelivery = .machine ∧ ∃ c v, s.load addr w = .error (.exc c v) ∧ t = s.enterTrap c v) := by
  unfold State.loadX at h
  rcases conclude_next.1 h with g | ⟨c, v, g, hm, rfl⟩
  · split at g
    · cases g
    · next v hv => cases g; exact .inl ⟨v, hv, rfl⟩
  · split at g
    · next e he => cases g; exact .inr ⟨hm, c, v, he, rfl⟩
    · cases g

/-- All a store can do: it completes with the bytes written, or takes a store exception. -/
theorem storeX_next {s t : State} {n : Nat} {addr : Word} {w : Nat} {v : Word} (h : s.storeX n addr w v = .next t) :
    (checkAccess s.cfg .store false addr w = .ok () ∧ t = (s.poke addr w v).advance n)
    ∨ (s.cfg.trapDelivery = .machine
        ∧ (t = s.enterTrap .storeAddrMisaligned addr ∨ t = s.enterTrap .storeAccessFault addr)) := by
  unfold State.storeX at h
  rcases conclude_next.1 h with g | ⟨c, v', g, hm, rfl⟩
  · split at g
    · cases g
    · next u hu =>
      obtain ⟨h1, rfl⟩ := store_ok.1 hu
      cases g
      exact .inl ⟨h1, rfl⟩
  · split at g
    · next e he =>
      cases g
      rcases store_error he with he | he <;> cases he
      · exact .inr ⟨hm, .inl rfl⟩
      · exact .inr ⟨hm, .inr rfl⟩
    · cases g

/-- The gate of FS: the body, or illegal-instruction while the unit is off (10_state.md R34). -/
theorem fpGate_next {s t : State} {i : Instr} {body : Result} (h : s.fpGate i body = .next t) :
    (s.fpOff = false ∧ body = .next t) ∨ (s.fpOff = true ∧ t = s.enterTrap .illegalInstruction i.bits) := by
  unfold State.fpGate at h
  split at h
  · next ho =>
    obtain ⟨c, v, he, -, rfl⟩ := stop_next.1 h
    cases he
    exact .inr ⟨ho, rfl⟩
  · next ho => exact .inl ⟨by simpa using ho, h⟩

/-- The gate of FS and of the rounding mode (44_f_single.md R302). -/
theorem fpRounded_next {s t : State} {i : Instr} {rm : BitVec 3} {body : RoundingMode → Result}
    (h : s.fpRounded i rm body = .next t) :
    (s.fpOff = false ∧ ∃ mode, s.effectiveRm rm = some mode ∧ body mode = .next t)
    ∨ t = s.enterTrap .illegalInstruction i.bits := by
  rcases fpGate_next h with ⟨ho, h⟩ | ⟨-, rfl⟩
  · split at h
    · obtain ⟨c, v, he, -, rfl⟩ := stop_next.1 h
      cases he
      exact .inr rfl
    · next mode hm => exact .inl ⟨ho, mode, hm, h⟩
  · exact .inr rfl

/-- A CSR check that passes: the address names the CSR, its unit is present, the mode suffices (60_exceptions.md R622). -/
theorem csrCheck_ok {s : State} {i : Instr} {addr : CsrAddr} {writes : Bool} {c : Csr} (h : s.csrCheck i addr writes = .ok c) :
    csrOf addr = some c ∧ c.present s.cfg.ext = true
      ∧ (addr.extractLsb' 8 2).toNat ≤ (Priv.code s.priv).toNat ∧ (c.isFp && s.fpOff) = false := by
  unfold State.csrCheck at h
  split at h
  · cases h
  · next h1 =>
    split at h
    · cases h
    · split at h
      · cases h
      · next c' hc =>
        split at h
        · cases h
        · next h3 =>
          split at h
          · cases h
          · next h4 =>
            cases h
            exact ⟨hc, by simpa using h3, by omega, by simpa using h4⟩

/-- A CSR check that fails is illegal-instruction or the refusal of an address the spec does not describe
(60_exceptions.md R622). -/
theorem csrCheck_error {s : State} {i : Instr} {addr : CsrAddr} {writes : Bool} {e : Stop}
    (h : s.csrCheck i addr writes = .error e) :
    e = illegal i ∨ (csrOf addr = none ∧ e = .refuse (.unmodelledCsr addr)) := by
  unfold State.csrCheck at h
  split at h
  · cases h; exact .inl rfl
  · split at h
    · cases h; exact .inl rfl
    · split at h
      · next hc => cases h; exact .inr ⟨hc, rfl⟩
      · split at h
        · cases h; exact .inl rfl
        · split at h
          · cases h; exact .inl rfl
          · cases h

/-- A push or pop that ends the run does so on the state reached so far, with the accesses already made kept
(49_zc_code_size.md R553, 60_exceptions.md R612). -/
theorem finishSequence_fault {p : State × Option Stop} {final : State → State} {f : Fault} :
    finishSequence p final = .fault f ↔ ∃ e, p.2 = some e ∧ p.1.stop e = .fault f := by
  unfold finishSequence
  split <;> simp_all

/-- A push or pop: its final section, or the exception of the access that failed on the state reached so far
(49_zc_code_size.md R553). -/
theorem finishSequence_next {p : State × Option Stop} {final : State → State} {t : State}
    (h : finishSequence p final = .next t) :
    (p.2 = none ∧ t = final p.1) ∨ ∃ c v, p.2 = some (.exc c v) ∧ t = p.1.enterTrap c v := by
  unfold finishSequence at h
  split at h
  · next e he =>
    obtain ⟨c, v, rfl, -, rfl⟩ := stop_next.1 h
    exact .inr ⟨c, v, he, rfl⟩
  · next hn =>
    cases h
    exact .inl ⟨hn, rfl⟩

end Sys2Proof.Machine
end

