-- ==== Sys2Proof/Laws/Sequences.lean ====
section
/-! SUPPORT. What the fetch, the step, the atomic operations, the CSR access and the Zcmp and Zcmt sequences can do, a lemma each. -/

namespace Sys2Proof.Machine

@[simp] theorem haltOn_never (s : State) : s.haltOn .never = false := rfl
@[simp] theorem haltOn_pcEquals (s : State) (addr : Word) : s.haltOn (.pcEquals addr) = (s.pc == addr) := rfl
@[simp] theorem haltOn_not (s : State) (h : Halt) : s.haltOn (.not h) = !s.haltOn h := rfl
@[simp] theorem haltOn_both (s : State) (h k : Halt) : s.haltOn (.both h k) = (s.haltOn h && s.haltOn k) := rfl
@[simp] theorem haltOn_either (s : State) (h k : Halt) : s.haltOn (.either h k) = (s.haltOn h || s.haltOn k) := rfl
@[simp] theorem haltOn_predicate (s : State) (n : Nat) : s.haltOn (.predicate n) = launcherHalt n s := rfl

/-- A machine whose HALT is `never` does not halt (60_exceptions.md R628). -/
theorem haltHolds_never {s : State} (h : s.cfg.halt = .never) : s.haltHolds = false := by
  rw [State.haltHolds, h]; rfl

/-- All a step does where HALT does not end the run: the fetch, the decoding, the meaning (00_scope.md R12). -/
theorem step_running {s : State} (h : s.cfg.trapDelivery = .machine → s.haltHolds = false) :
    step s =
      match s.fetch with
      | .error e => s.stop e
      | .ok code =>
        match decode s.cfg.xlen s.cfg.ext code with
        | none => s.takeTrap .illegalInstruction code.bits
        | some i => exec i s := by
  have hn : (s.cfg.trapDelivery == .machine && s.haltHolds) = false := by
    cases hd : s.cfg.trapDelivery
    · rfl
    · rw [h hd]; rfl
  exact if_neg (by rw [hn]; exact Bool.false_ne_true)

/-- A step that stops for HALT, or as its parts do (60_exceptions.md R628). -/
theorem step_fault {s : State} {f : Fault} (h : step s = .fault f) :
    (s.cfg.trapDelivery = .machine ∧ s.haltHolds = true ∧ f = .halted s)
    ∨ (∃ e, s.fetch = .error e ∧ s.stop e = .fault f)
    ∨ (∃ code, s.fetch = .ok code ∧ decode s.cfg.xlen s.cfg.ext code = none ∧ s.cfg.trapDelivery = .environment
        ∧ f = .trap .illegalInstruction s.pc code.bits s)
    ∨ (∃ code i, s.fetch = .ok code ∧ decode s.cfg.xlen s.cfg.ext code = some i ∧ exec i s = .fault f) := by
  unfold step at h
  split at h
  · next hh =>
    rw [Bool.and_eq_true, beq_iff_eq] at hh
    cases h
    exact .inl ⟨hh.1, hh.2, rfl⟩
  · split at h
    · next e he => exact .inr (.inl ⟨e, he, h⟩)
    · next code hc =>
      split at h
      · next hd =>
        obtain ⟨he, rfl⟩ := takeTrap_fault.1 h
        exact .inr (.inr (.inl ⟨code, hc, hd, he, rfl⟩))
      · next i hd => exact .inr (.inr (.inr ⟨code, i, hc, hd, h⟩))

/-- All a step can do on the way to a next state: the meaning of the decoded instruction, illegal-instruction for a word that is
none, or an exception of the fetch (00_scope.md R12). -/
theorem step_next {s t : State} (h : step s = .next t) :
    (∃ code i, s.fetch = .ok code ∧ decode s.cfg.xlen s.cfg.ext code = some i ∧ exec i s = .next t)
    ∨ (s.cfg.trapDelivery = .machine ∧ ∃ code, s.fetch = .ok code ∧ decode s.cfg.xlen s.cfg.ext code = none
        ∧ t = s.enterTrap .illegalInstruction code.bits)
    ∨ (s.cfg.trapDelivery = .machine ∧ ∃ c v, s.fetch = .error (.exc c v) ∧ t = s.enterTrap c v) := by
  unfold step at h
  split at h
  · cases h
  · split at h
    · next e he =>
      obtain ⟨c, v, rfl, hm, rfl⟩ := stop_next.1 h
      exact .inr (.inr ⟨hm, c, v, he, rfl⟩)
    · next code hc =>
      split at h
      · next hd =>
        obtain ⟨hm, rfl⟩ := takeTrap_next.1 h
        exact .inr (.inl ⟨hm, code, hc, hd, rfl⟩)
      · next i hd => exact .inl ⟨code, i, hc, hd, h⟩

/-- A fetch that reads: execute permission, no stale byte, every byte with a value (20_memory.md R69, R79). -/
theorem fetchRead_ok {s : State} {addr : Word} {n : Nat} {v : Word} :
    s.fetchRead addr n = .ok v ↔
      permitted s.cfg .execute addr n = true ∧ s.firstStale (accessAddrs s.cfg.xlen addr n) = none ∧ s.peek addr n = .ok v := by
  unfold State.fetchRead
  cases permitted s.cfg .execute addr n
  · simp
  · cases s.firstStale (accessAddrs s.cfg.xlen addr n) <;> simp

/-- A fetch that raises an exception raises instruction-access-fault with its own address (60_exceptions.md R602). -/
theorem fetchRead_exc {s : State} {addr : Word} {n : Nat} {c : Exc} {v : Word} (h : s.fetchRead addr n = .error (.exc c v)) :
    c = .instrAccessFault ∧ v = addr ∧ permitted s.cfg .execute addr n = false := by
  unfold State.fetchRead at h
  split at h
  · next hp => cases h; exact ⟨rfl, rfl, by simpa using hp⟩
  · split at h
    · cases h
    · unfold State.peek at h
      split at h
      · next e he =>
        obtain ⟨a, -, -, rfl⟩ := readBytes_error he
        cases h
      · cases h

/-- All a load-reserved can do (43_a_atomic.md R250, R251). -/
theorem loadReserved_next {s t : State} {rd : RegIdx} {addr : Word} {n : Nat} (h : s.loadReserved rd addr n = .next t) :
    (∃ v, checkAccess s.cfg .load true addr n = .ok () ∧ s.peek addr n = .ok v
      ∧ t = { s.writeX 4 rd (atomicValue s.xlen n v) with reservation := some ⟨addr, n⟩ })
    ∨ (s.cfg.trapDelivery = .machine ∧ ∃ c v, t = s.enterTrap c v) := by
  unfold State.loadReserved at h
  rcases conclude_next.1 h with g | ⟨c, v, -, hm, rfl⟩
  · split at g
    · cases g
    · next hc =>
      split at g
      · cases g
      · next v hv => cases g; exact .inl ⟨v, hc, hv, rfl⟩
  · exact .inr ⟨hm, c, v, rfl⟩

/-- All a store-conditional can do: it succeeds, fails, or takes the exception of its checks (43_a_atomic.md R250, R251). -/
theorem storeConditional_next {s t : State} {rd : RegIdx} {addr : Word} {n : Nat} {v : Word}
    (h : s.storeConditional rd addr n v = .next t) :
    (checkAccess s.cfg .atomic true addr n = .ok () ∧ s.scSucceeds addr n = true
      ∧ t = { ((s.scDrawn addr n).poke addr n v).writeX 4 rd 0#64 with reservation := none })
    ∨ (checkAccess s.cfg .atomic true addr n = .ok () ∧ s.scSucceeds addr n = false
      ∧ t = { (s.scDrawn addr n).writeX 4 rd 1#64 with reservation := none })
    ∨ (s.cfg.trapDelivery = .machine ∧ ∃ c v, t = s.enterTrap c v) := by
  unfold State.storeConditional at h
  rcases conclude_next.1 h with g | ⟨c, v, -, hm, rfl⟩
  · split at g
    · cases g
    · next hc =>
      cases g
      cases hs : s.scSucceeds addr n
      · exact .inr (.inl ⟨hc, rfl, rfl⟩)
      · exact .inl ⟨hc, rfl, rfl⟩
  · exact .inr (.inr ⟨hm, c, v, rfl⟩)

/-- All an atomic memory operation can do (43_a_atomic.md R250, R252). -/
theorem amo_next {s t : State} {rd : RegIdx} {addr : Word} {n : Nat} {op : Word → Word} (h : s.amo rd addr n op = .next t) :
    (∃ v, checkAccess s.cfg .atomic true addr n = .ok () ∧ s.peek addr n = .ok v
      ∧ t = (s.poke addr n (op v)).writeX 4 rd (atomicValue s.xlen n v))
    ∨ (s.cfg.trapDelivery = .machine ∧ ∃ c v, t = s.enterTrap c v) := by
  unfold State.amo at h
  rcases conclude_next.1 h with g | ⟨c, v, -, hm, rfl⟩
  · split at g
    · cases g
    · next hc =>
      split at g
      · cases g
      · next v hv => cases g; exact .inl ⟨v, hc, hv, rfl⟩
  · exact .inr ⟨hm, c, v, rfl⟩

/-- Reading a CSR changes the count of free values at most (10_state.md R32). -/
theorem csrRead_state (s : State) (c : Csr) : (s.csrRead c).2 = s ∨ (s.csrRead c).2 = s.drawn := by
  cases c <;> first | exact .inl rfl | exact .inr rfl

/-- All a CSR instruction can do: with the CSR its address names, the read, the write and rd in this order, or
illegal-instruction (60_exceptions.md R622). -/
theorem csrAccess_next {s t : State} {i : Instr} {rd : RegIdx} {addr : CsrAddr} {reads writes : Bool} {newValue : Word → Word}
    (h : s.csrAccess i rd addr reads writes newValue = .next t) :
    (∃ c s₁ s₂, s.csrCheck i addr writes = .ok c ∧ s₁ = (if reads then (s.csrRead c).2 else s)
      ∧ s₂ = (if writes then s₁.csrWrite (newValue (s.csrValue c)) c else s₁)
      ∧ t = (if reads then s₂.setX rd (s.csrRead c).1 else s₂).advance 4)
    ∨ (s.cfg.trapDelivery = .machine ∧ t = s.enterTrap .illegalInstruction i.bits) := by
  unfold State.csrAccess at h
  split at h
  · next e he =>
    obtain ⟨c, v, rfl, hm, rfl⟩ := stop_next.1 h
    rcases csrCheck_error he with he | ⟨-, he⟩
    · cases he; exact .inr ⟨hm, rfl⟩
    · cases he
  · next c hc =>
    cases reads <;> cases h <;> exact .inl ⟨c, _, _, hc, rfl, rfl, rfl⟩

/-- Storing bytes changes memory and the fetch-coherence set alone (20_memory.md R61, 10_state.md R42). -/
theorem putBytes_frame (s : State) (l : List (Nat × Byte)) :
    s.putBytes l = { s with mem := (s.putBytes l).mem, stale := (s.putBytes l).stale } := by
  induction l generalizing s with
  | nil => rfl
  | cons p rest ih =>
    unfold State.putBytes
    rw [ih]

/-- The stores of a push change memory and the fetch-coherence set alone (49_zc_code_size.md R553). -/
theorem pushAll_frame (l : List RegIdx) (addr : Word) (s : State) :
    (pushAll l addr s).1 = { s with mem := (pushAll l addr s).1.mem, stale := (pushAll l addr s).1.stale } := by
  induction l generalizing addr s with
  | nil => rfl
  | cons r rest ih =>
    unfold pushAll
    split
    · rfl
    · next u hu =>
      obtain ⟨-, rfl⟩ := store_ok.1 hu
      rw [ih, State.poke, putBytes_frame]

/-- The loads of a pop change integer registers alone (49_zc_code_size.md R553). -/
theorem popAll_frame (l : List RegIdx) (addr : Word) (s : State) : (popAll l addr s).1 = { s with x := (popAll l addr s).1.x } := by
  induction l generalizing addr s with
  | nil => rfl
  | cons r rest ih =>
    unfold popAll
    split
    · rfl
    · next v hv =>
      rw [ih]
      unfold State.setX
      split <;> rfl

/-- All a jump through the table can do: the jump to the entry with bit 0 cleared, or illegal-instruction for a mode of jvt that
is not defined, or the exception of reading the entry (49_zc_code_size.md R555). -/
theorem tableJump_next {s t : State} {i : Instr} {index : BitVec 8} {link : State → State} (h : s.tableJump i index link = .next t) :
    (∃ target, s.jvt.extractLsb' 0 6 = 0#6
      ∧ s.fetchRead (effAddr s.xlen (s.jvt &&& ~~~0x3f#64) (BitVec.ofNat 64 (index.toNat * s.xlen.bytes))) s.xlen.bytes = .ok target
      ∧ t = { link s with pc := target &&& ~~~1#64 })
    ∨ (s.cfg.trapDelivery = .machine ∧ s.jvt.extractLsb' 0 6 ≠ 0#6 ∧ t = s.enterTrap .illegalInstruction i.bits)
    ∨ (s.cfg.trapDelivery = .machine ∧ ∃ v, t = s.enterTrap .instrAccessFault v) := by
  unfold State.tableJump at h
  split at h
  · next hj =>
    obtain ⟨c, v, he, hm, rfl⟩ := stop_next.1 h
    cases he
    exact .inr (.inl ⟨hm, hj, rfl⟩)
  · next hj =>
    split at h
    · next e he =>
      obtain ⟨c, v, rfl, hm, rfl⟩ := stop_next.1 h
      obtain ⟨rfl, -, -⟩ := fetchRead_exc he
      exact .inr (.inr ⟨hm, v, rfl⟩)
    · next target ht =>
      cases h
      exact .inl ⟨target, not_not.mp hj, ht, rfl⟩

end Sys2Proof.Machine
end

