-- ==== Sys2Proof/Tests/Slice0.lean ====
section
/-! SUPPORT. Tests: the refusals of WellFormed, the decoding of one word of every instruction, one step of the instructions with
the values of the spec's own vectors, and a witness for the hypotheses of each obligation. -/

open Sys2Proof Sys2Proof.Machine

namespace Sys2Proof.Tests

set_option Elab.async false

/-- F and Zfh without D: FLEN is 32. -/
abbrev noD : Ext := { Ext.all with d := false }

/-- The hart of the tests: reset with the given machine, MEM_MAP over the whole address space, the floating-point unit on. -/
def hart (xlen : Xlen) (ext : Ext) : State :=
  { State.resetWith { Config.default with xlen := xlen, ext := ext, memMap := Config.wholeSpace xlen } with
    mstatus := { Mstatus.reset with fs := 1 } }

/-- A hart with integer registers set. -/
def withX (s : State) (xs : List (RegIdx × Word)) : State := xs.foldl (fun t p => t.setX p.1 p.2) s

/-- A hart with floating-point registers set, FS as it was. -/
def withF (s : State) (fs : List (RegIdx × Word)) : State :=
  { fs.foldl (fun t p => t.setF p.1 p.2) s with mstatus := s.mstatus }

/-- A hart with memory loaded from outside: an address, a little-endian number, its length in bytes. -/
def withMem (s : State) (ms : List (Nat × Nat × Nat)) : State :=
  ms.foldl (fun t m => t.placeBytes ((List.range m.2.2).map (fun k => (m.1 + k, BitVec.ofNat 8 (m.2.1 / 256 ^ k))))) s

/-- Whether an outcome is a state with a property. -/
def after (r : Result) (p : State → Bool) : Bool :=
  match r with
  | .next t => p t
  | .fault _ => false
  | .refused _ => false

/-- One vector of the spec: its number there, the machine, the instruction, the integer registers, floating-point registers
and memory before, those after that change, fflags and pc after. pc is 0x1000 and fcsr 0 before. -/
structure Case where
  source : String
  xlen : Xlen
  ext : Ext
  instr : Instr
  x : List (RegIdx × Word)
  f : List (RegIdx × Word)
  mem : List (Nat × Nat × Nat)
  x' : List (RegIdx × Word)
  f' : List (RegIdx × Word)
  mem' : List (Nat × Nat × Nat)
  fflags' : BitVec 5
  pc' : Word

/-- Whether the instruction completes with the values of the vector. -/
def Case.passes (c : Case) : Bool :=
  after (exec c.instr (withMem (withF (withX (hart c.xlen c.ext) c.x) c.f) c.mem)) (fun t =>
    c.x'.all (fun p => t.getX p.1 == p.2) && c.f'.all (fun p => t.getF p.1 == p.2)
      && c.mem'.all (fun m => (List.range m.2.2).all (fun k =>
          Memory.get? t.mem (m.1 + k) == some (BitVec.ofNat 8 (m.2.1 / 256 ^ k))))
      && t.fflags == c.fflags' && t.pc == c.pc')

/-- Every vector of a list passes. -/
abbrev AllPass (cases : List Case) : Prop := cases.all Case.passes = true

/-! Well-formedness: an ill-formed instruction for each check, and its well-formed neighbour. -/

/-- A machine with all units but the ones a function clears. -/
abbrev Refuses (xlen : Xlen) (ext : Ext) (is : List Instr) : Prop := is.all (fun i => !i.wf xlen ext) = true

/-- Every instruction of a list is well-formed. -/
abbrev Accepts (xlen : Xlen) (ext : Ext) (is : List Instr) : Prop := is.all (fun i => i.wf xlen ext) = true

theorem test_wf_refuses_rv64_instructions_on_rv32 :
    Refuses .rv32 Ext.all [.ld 5#5 6#5 0#12, .addw 5#5 6#5 7#5, .fcvtLS 5#5 6#5 0#3, .cSd 1#3 2#3 0#5, .zextHRv64 5#5 6#5] := by
  decide +kernel

theorem test_wf_refuses_rv32_instructions_on_rv64 :
    Refuses .rv64 Ext.all [.cJal 0#11, .cFlw 1#3 2#3 0#5, .rev8Rv32 5#5 6#5] := by decide +kernel

theorem test_wf_refuses_absent_units :
    Refuses .rv64 { Ext.all with m := false } [.mul 5#5 6#5 7#5, .cMul 1#3 2#3]
      ∧ Refuses .rv64 { Ext.all with a := false } [.lrW 5#5 6#5 0#1 0#1]
      ∧ Refuses .rv64 { Ext.all with f := false } [.faddS 5#5 6#5 7#5 0#3]
      ∧ Refuses .rv64 { Ext.all with d := false } [.faddD 5#5 6#5 7#5 0#3, .fcvtDH 5#5 6#5 0#3]
      ∧ Refuses .rv64 { Ext.all with c := false } [.cNop 0#6, .cLbu 1#3 2#3 0#2, .cmPush 4#4 0#2]
      ∧ Refuses .rv64 { Ext.all with b := false } [.andn 5#5 6#5 7#5, .cSextB 1#3]
      ∧ Refuses .rv64 { Ext.all with zfh := false } [.faddH 5#5 6#5 7#5 0#3, .fcvtHD 5#5 6#5 0#3]
      ∧ Refuses .rv64 { Ext.all with zcb := false } [.cLbu 1#3 2#3 0#2]
      ∧ Refuses .rv64 { Ext.all with zcmp := false } [.cmPush 4#4 0#2]
      ∧ Refuses .rv64 { Ext.all with zcmt := false } [.cmJt 0#8] := by
  decide +kernel

theorem test_wf_refuses_excluded_and_never_admitted :
    Refuses .rv64 Ext.all [.cFld 1#3 2#3 0#5, .cFsd 1#3 2#3 0#5, .cFldsp 5#5 0#6, .cFsdsp 5#5 0#6, .fcvtQH 5#5 6#5 0#3,
      .fcvtHQ 5#5 6#5 0#3]
      ∧ Accepts .rv64 Ext.noPushJump [.cFld 1#3 2#3 0#5, .cFsd 1#3 2#3 0#5, .cFldsp 5#5 0#6, .cFsdsp 5#5 0#6] := by
  decide +kernel

theorem test_wf_refuses_long_shifts_on_rv32 :
    Refuses .rv32 Ext.all [.slli 5#5 6#5 32#6, .srli 5#5 6#5 32#6, .srai 5#5 6#5 32#6, .cSrli 1#3 32#6, .cSrai 1#3 32#6,
      .cSlli 5#5 32#6, .rori 5#5 6#5 32#6, .bclri 5#5 6#5 32#6, .bexti 5#5 6#5 32#6, .binvi 5#5 6#5 32#6, .bseti 5#5 6#5 32#6]
      ∧ Accepts .rv32 Ext.all [.slli 5#5 6#5 31#6, .cSlli 5#5 31#6, .bseti 5#5 6#5 31#6]
      ∧ Accepts .rv64 Ext.all [.slli 5#5 6#5 63#6, .cSlli 5#5 63#6, .bseti 5#5 6#5 63#6] := by
  decide +kernel

theorem test_wf_refuses_reserved_compressed_fields :
    Refuses .rv64 Ext.all [.cAddi4spn 1#3 0#8, .cAddi 0#5 1#6, .cAddiw 0#5 1#6, .cAddi16sp 0#6, .cLui 2#5 1#6, .cLui 3#5 0#6,
      .cLwsp 0#5 1#6, .cLdsp 0#5 1#6, .cJr 0#5, .cMv 5#5 0#5, .cJalr 0#5, .cAdd 5#5 0#5]
      ∧ Accepts .rv64 Ext.all [.cAddi4spn 1#3 1#8, .cAddi 1#5 0#6, .cAddiw 1#5 0#6, .cAddi16sp 1#6, .cLui 3#5 1#6, .cLwsp 1#5 0#6,
        .cLdsp 1#5 0#6, .cJr 1#5, .cMv 0#5 1#5, .cJalr 1#5, .cAdd 0#5 1#5] := by
  decide +kernel

theorem test_wf_refuses_reserved_code_size_fields :
    Refuses .rv64 Ext.all [.cmPush 3#4 0#2, .cmPop 3#4 0#2, .cmPopretz 3#4 0#2, .cmPopret 3#4 0#2, .cmMvsa01 3#3 3#3, .cmJt 32#8,
      .cmJalt 31#8]
      ∧ Accepts .rv64 Ext.all [.cmPush 4#4 0#2, .cmPop 4#4 0#2, .cmPopretz 4#4 0#2, .cmPopret 4#4 0#2, .cmMvsa01 3#3 4#3,
        .cmMva01s 3#3 3#3, .cmJt 31#8, .cmJalt 32#8] := by
  decide +kernel

/-! Decoding: for every instruction a word written out field by field from the encoding line of its rule, with operands of
uneven bits, and the instruction it stands for on a machine that has it. The two recorded quad conversions are no
instruction of any machine. -/

/-- Every word of a list decodes, on its machine, as the list says. -/
abbrev AllDecode (rows : List (Xlen × Ext × Code × Option Instr)) : Prop :=
  rows.all (fun r => decide (decode r.1 r.2.1 r.2.2.1 = r.2.2.2)) = true

theorem test_decode_base_1 : AllDecode [
    (.rv64, Ext.all, .full 0b10110010110100111011_00101_0110111#32, some (.lui 5#5 0b10110010110100111011#20)),
    (.rv64, Ext.all, .full 0b10110010110100111011_00101_0010111#32, some (.auipc 5#5 0b10110010110100111011#20)),
    (.rv64, Ext.all, .full 0b101100101101_00110_000_00101_0010011#32, some (.addi 5#5 6#5 0b101100101101#12)),
    (.rv64, Ext.all, .full 0b101100101101_00110_010_00101_0010011#32, some (.slti 5#5 6#5 0b101100101101#12)),
    (.rv64, Ext.all, .full 0b101100101101_00110_011_00101_0010011#32, some (.sltiu 5#5 6#5 0b101100101101#12)),
    (.rv64, Ext.all, .full 0b101100101101_00110_100_00101_0010011#32, some (.xori 5#5 6#5 0b101100101101#12)),
    (.rv64, Ext.all, .full 0b101100101101_00110_110_00101_0010011#32, some (.ori 5#5 6#5 0b101100101101#12)),
    (.rv64, Ext.all, .full 0b101100101101_00110_111_00101_0010011#32, some (.andi 5#5 6#5 0b101100101101#12)),
    (.rv64, Ext.all, .full 0b000000_010110_00110_001_00101_0010011#32, some (.slli 5#5 6#5 0b010110#6)),
    (.rv64, Ext.all, .full 0b000000_010110_00110_101_00101_0010011#32, some (.srli 5#5 6#5 0b010110#6)),
    (.rv64, Ext.all, .full 0b010000_010110_00110_101_00101_0010011#32, some (.srai 5#5 6#5 0b010110#6)),
    (.rv64, Ext.all, .full 0b0000000_00111_00110_000_00101_0110011#32, some (.add 5#5 6#5 7#5)),
    (.rv64, Ext.all, .full 0b0100000_00111_00110_000_00101_0110011#32, some (.sub 5#5 6#5 7#5)),
    (.rv64, Ext.all, .full 0b0000000_00111_00110_001_00101_0110011#32, some (.sll 5#5 6#5 7#5))] := by decide +kernel

theorem test_decode_base_2 : AllDecode [
    (.rv64, Ext.all, .full 0b0000000_00111_00110_010_00101_0110011#32, some (.slt 5#5 6#5 7#5)),
    (.rv64, Ext.all, .full 0b0000000_00111_00110_011_00101_0110011#32, some (.sltu 5#5 6#5 7#5)),
    (.rv64, Ext.all, .full 0b0000000_00111_00110_100_00101_0110011#32, some (.xor 5#5 6#5 7#5)),
    (.rv64, Ext.all, .full 0b0000000_00111_00110_101_00101_0110011#32, some (.srl 5#5 6#5 7#5)),
    (.rv64, Ext.all, .full 0b0100000_00111_00110_101_00101_0110011#32, some (.sra 5#5 6#5 7#5)),
    (.rv64, Ext.all, .full 0b0000000_00111_00110_110_00101_0110011#32, some (.or 5#5 6#5 7#5)),
    (.rv64, Ext.all, .full 0b0000000_00111_00110_111_00101_0110011#32, some (.and 5#5 6#5 7#5)),
    (.rv64, Ext.all, .full 0b1000_0011_0001_00110_000_00101_0001111#32, some (.fence 5#5 6#5 0b1000#4 0b0011#4 0b0001#4)),
    (.rv64, Ext.all, .full 0b101100101101_00110_001_00101_0001111#32, some (.fenceI 5#5 6#5 0b101100101101#12)),
    (.rv64, Ext.all, .full 0b001101000001_00110_001_00101_1110011#32, some (.csrrw 5#5 6#5 0b001101000001#12)),
    (.rv64, Ext.all, .full 0b001101000001_00110_010_00101_1110011#32, some (.csrrs 5#5 6#5 0b001101000001#12)),
    (.rv64, Ext.all, .full 0b001101000001_00110_011_00101_1110011#32, some (.csrrc 5#5 6#5 0b001101000001#12)),
    (.rv64, Ext.all, .full 0b001101000001_10110_101_00101_1110011#32, some (.csrrwi 5#5 0b001101000001#12 22#5)),
    (.rv64, Ext.all, .full 0b001101000001_10110_110_00101_1110011#32, some (.csrrsi 5#5 0b001101000001#12 22#5))] := by decide +kernel

theorem test_decode_base_3 : AllDecode [
    (.rv64, Ext.all, .full 0b001101000001_10110_111_00101_1110011#32, some (.csrrci 5#5 0b001101000001#12 22#5)),
    (.rv64, Ext.all, .full 0b000000000000_00000_000_00000_1110011#32, some .ecall),
    (.rv64, Ext.all, .full 0b000000000001_00000_000_00000_1110011#32, some .ebreak),
    (.rv64, Ext.all, .full 0b0001000_00010_00000_000_00000_1110011#32, some .sret),
    (.rv64, Ext.all, .full 0b0011000_00010_00000_000_00000_1110011#32, some .mret),
    (.rv64, Ext.all, .full 0b0001000_00101_00000_000_00000_1110011#32, some .wfi),
    (.rv64, Ext.all, .full 0b0001001_00111_00110_000_00000_1110011#32, some (.sfenceVma 6#5 7#5)),
    (.rv64, Ext.all, .full 0b101100101101_00110_000_00101_0000011#32, some (.lb 5#5 6#5 0b101100101101#12)),
    (.rv64, Ext.all, .full 0b101100101101_00110_001_00101_0000011#32, some (.lh 5#5 6#5 0b101100101101#12)),
    (.rv64, Ext.all, .full 0b101100101101_00110_010_00101_0000011#32, some (.lw 5#5 6#5 0b101100101101#12)),
    (.rv64, Ext.all, .full 0b101100101101_00110_100_00101_0000011#32, some (.lbu 5#5 6#5 0b101100101101#12)),
    (.rv64, Ext.all, .full 0b101100101101_00110_101_00101_0000011#32, some (.lhu 5#5 6#5 0b101100101101#12)),
    (.rv64, Ext.all, .full 0b1011001_00111_00110_000_01101_0100011#32, some (.sb 6#5 7#5 0b101100101101#12)),
    (.rv64, Ext.all, .full 0b1011001_00111_00110_001_01101_0100011#32, some (.sh 6#5 7#5 0b101100101101#12))] := by decide +kernel

theorem test_decode_base_4 : AllDecode [
    (.rv64, Ext.all, .full 0b1011001_00111_00110_010_01101_0100011#32, some (.sw 6#5 7#5 0b101100101101#12)),
    (.rv64, Ext.all, .full 0b10100111011101100101_00101_1101111#32, some (.jal 5#5 0b10110010110100111011#20)),
    (.rv64, Ext.all, .full 0b101100101101_00110_000_00101_1100111#32, some (.jalr 5#5 6#5 0b101100101101#12)),
    (.rv64, Ext.all, .full 0b1110010_00111_00110_000_11010_1100011#32, some (.beq 6#5 7#5 0b101100101101#12)),
    (.rv64, Ext.all, .full 0b1110010_00111_00110_001_11010_1100011#32, some (.bne 6#5 7#5 0b101100101101#12)),
    (.rv64, Ext.all, .full 0b1110010_00111_00110_100_11010_1100011#32, some (.blt 6#5 7#5 0b101100101101#12)),
    (.rv64, Ext.all, .full 0b1110010_00111_00110_101_11010_1100011#32, some (.bge 6#5 7#5 0b101100101101#12)),
    (.rv64, Ext.all, .full 0b1110010_00111_00110_110_11010_1100011#32, some (.bltu 6#5 7#5 0b101100101101#12)),
    (.rv64, Ext.all, .full 0b1110010_00111_00110_111_11010_1100011#32, some (.bgeu 6#5 7#5 0b101100101101#12)),
    (.rv64, Ext.all, .full 0b101100101101_00110_000_00101_0011011#32, some (.addiw 5#5 6#5 0b101100101101#12)),
    (.rv64, Ext.all, .full 0b0000000_10110_00110_001_00101_0011011#32, some (.slliw 5#5 6#5 22#5)),
    (.rv64, Ext.all, .full 0b0000000_10110_00110_101_00101_0011011#32, some (.srliw 5#5 6#5 22#5)),
    (.rv64, Ext.all, .full 0b0100000_10110_00110_101_00101_0011011#32, some (.sraiw 5#5 6#5 22#5)),
    (.rv64, Ext.all, .full 0b0000000_00111_00110_000_00101_0111011#32, some (.addw 5#5 6#5 7#5))] := by decide +kernel

theorem test_decode_base_5 : AllDecode [
    (.rv64, Ext.all, .full 0b0100000_00111_00110_000_00101_0111011#32, some (.subw 5#5 6#5 7#5)),
    (.rv64, Ext.all, .full 0b0000000_00111_00110_001_00101_0111011#32, some (.sllw 5#5 6#5 7#5)),
    (.rv64, Ext.all, .full 0b0000000_00111_00110_101_00101_0111011#32, some (.srlw 5#5 6#5 7#5)),
    (.rv64, Ext.all, .full 0b0100000_00111_00110_101_00101_0111011#32, some (.sraw 5#5 6#5 7#5)),
    (.rv64, Ext.all, .full 0b101100101101_00110_110_00101_0000011#32, some (.lwu 5#5 6#5 0b101100101101#12)),
    (.rv64, Ext.all, .full 0b101100101101_00110_011_00101_0000011#32, some (.ld 5#5 6#5 0b101100101101#12)),
    (.rv64, Ext.all, .full 0b1011001_00111_00110_011_01101_0100011#32, some (.sd 6#5 7#5 0b101100101101#12))] := by decide +kernel

theorem test_decode_single_1 : AllDecode [
    (.rv64, Ext.all, .full 0b01000_00_00111_00110_001_00101_1000011#32, some (.fmaddS 5#5 6#5 7#5 8#5 0b001#3)),
    (.rv64, Ext.all, .full 0b01000_00_00111_00110_001_00101_1000111#32, some (.fmsubS 5#5 6#5 7#5 8#5 0b001#3)),
    (.rv64, Ext.all, .full 0b01000_00_00111_00110_001_00101_1001011#32, some (.fnmsubS 5#5 6#5 7#5 8#5 0b001#3)),
    (.rv64, Ext.all, .full 0b01000_00_00111_00110_001_00101_1001111#32, some (.fnmaddS 5#5 6#5 7#5 8#5 0b001#3)),
    (.rv64, Ext.all, .full 0b0000000_00111_00110_001_00101_1010011#32, some (.faddS 5#5 6#5 7#5 0b001#3)),
    (.rv64, Ext.all, .full 0b0000100_00111_00110_001_00101_1010011#32, some (.fsubS 5#5 6#5 7#5 0b001#3)),
    (.rv64, Ext.all, .full 0b0001000_00111_00110_001_00101_1010011#32, some (.fmulS 5#5 6#5 7#5 0b001#3)),
    (.rv64, Ext.all, .full 0b0001100_00111_00110_001_00101_1010011#32, some (.fdivS 5#5 6#5 7#5 0b001#3)),
    (.rv64, Ext.all, .full 0b0101100_00000_00110_001_00101_1010011#32, some (.fsqrtS 5#5 6#5 0b001#3)),
    (.rv64, Ext.all, .full 0b0010000_00111_00110_000_00101_1010011#32, some (.fsgnjS 5#5 6#5 7#5)),
    (.rv64, Ext.all, .full 0b0010000_00111_00110_001_00101_1010011#32, some (.fsgnjnS 5#5 6#5 7#5)),
    (.rv64, Ext.all, .full 0b0010000_00111_00110_010_00101_1010011#32, some (.fsgnjxS 5#5 6#5 7#5)),
    (.rv64, Ext.all, .full 0b0010100_00111_00110_000_00101_1010011#32, some (.fminS 5#5 6#5 7#5)),
    (.rv64, Ext.all, .full 0b0010100_00111_00110_001_00101_1010011#32, some (.fmaxS 5#5 6#5 7#5))] := by decide +kernel

theorem test_decode_single_2 : AllDecode [
    (.rv64, Ext.all, .full 0b1100000_00000_00110_001_00101_1010011#32, some (.fcvtWS 5#5 6#5 0b001#3)),
    (.rv64, Ext.all, .full 0b1100000_00001_00110_001_00101_1010011#32, some (.fcvtWuS 5#5 6#5 0b001#3)),
    (.rv64, Ext.all, .full 0b1110000_00000_00110_000_00101_1010011#32, some (.fmvXW 5#5 6#5)),
    (.rv64, Ext.all, .full 0b1010000_00111_00110_010_00101_1010011#32, some (.feqS 5#5 6#5 7#5)),
    (.rv64, Ext.all, .full 0b1010000_00111_00110_001_00101_1010011#32, some (.fltS 5#5 6#5 7#5)),
    (.rv64, Ext.all, .full 0b1010000_00111_00110_000_00101_1010011#32, some (.fleS 5#5 6#5 7#5)),
    (.rv64, Ext.all, .full 0b1110000_00000_00110_001_00101_1010011#32, some (.fclassS 5#5 6#5)),
    (.rv64, Ext.all, .full 0b1101000_00000_00110_001_00101_1010011#32, some (.fcvtSW 5#5 6#5 0b001#3)),
    (.rv64, Ext.all, .full 0b1101000_00001_00110_001_00101_1010011#32, some (.fcvtSWu 5#5 6#5 0b001#3)),
    (.rv64, Ext.all, .full 0b1111000_00000_00110_000_00101_1010011#32, some (.fmvWX 5#5 6#5)),
    (.rv64, Ext.all, .full 0b101100101101_00110_010_00101_0000111#32, some (.flw 5#5 6#5 0b101100101101#12)),
    (.rv64, Ext.all, .full 0b1011001_00111_00110_010_01101_0100111#32, some (.fsw 6#5 7#5 0b101100101101#12)),
    (.rv64, Ext.all, .full 0b1100000_00010_00110_001_00101_1010011#32, some (.fcvtLS 5#5 6#5 0b001#3)),
    (.rv64, Ext.all, .full 0b1100000_00011_00110_001_00101_1010011#32, some (.fcvtLuS 5#5 6#5 0b001#3))] := by decide +kernel

theorem test_decode_single_3 : AllDecode [
    (.rv64, Ext.all, .full 0b1101000_00010_00110_001_00101_1010011#32, some (.fcvtSL 5#5 6#5 0b001#3)),
    (.rv64, Ext.all, .full 0b1101000_00011_00110_001_00101_1010011#32, some (.fcvtSLu 5#5 6#5 0b001#3))] := by decide +kernel

theorem test_decode_double_1 : AllDecode [
    (.rv64, Ext.all, .full 0b01000_01_00111_00110_001_00101_1000011#32, some (.fmaddD 5#5 6#5 7#5 8#5 0b001#3)),
    (.rv64, Ext.all, .full 0b01000_01_00111_00110_001_00101_1000111#32, some (.fmsubD 5#5 6#5 7#5 8#5 0b001#3)),
    (.rv64, Ext.all, .full 0b01000_01_00111_00110_001_00101_1001011#32, some (.fnmsubD 5#5 6#5 7#5 8#5 0b001#3)),
    (.rv64, Ext.all, .full 0b01000_01_00111_00110_001_00101_1001111#32, some (.fnmaddD 5#5 6#5 7#5 8#5 0b001#3)),
    (.rv64, Ext.all, .full 0b0000001_00111_00110_001_00101_1010011#32, some (.faddD 5#5 6#5 7#5 0b001#3)),
    (.rv64, Ext.all, .full 0b0000101_00111_00110_001_00101_1010011#32, some (.fsubD 5#5 6#5 7#5 0b001#3)),
    (.rv64, Ext.all, .full 0b0001001_00111_00110_001_00101_1010011#32, some (.fmulD 5#5 6#5 7#5 0b001#3)),
    (.rv64, Ext.all, .full 0b0001101_00111_00110_001_00101_1010011#32, some (.fdivD 5#5 6#5 7#5 0b001#3)),
    (.rv64, Ext.all, .full 0b0101101_00000_00110_001_00101_1010011#32, some (.fsqrtD 5#5 6#5 0b001#3)),
    (.rv64, Ext.all, .full 0b0010001_00111_00110_000_00101_1010011#32, some (.fsgnjD 5#5 6#5 7#5)),
    (.rv64, Ext.all, .full 0b0010001_00111_00110_001_00101_1010011#32, some (.fsgnjnD 5#5 6#5 7#5)),
    (.rv64, Ext.all, .full 0b0010001_00111_00110_010_00101_1010011#32, some (.fsgnjxD 5#5 6#5 7#5)),
    (.rv64, Ext.all, .full 0b0010101_00111_00110_000_00101_1010011#32, some (.fminD 5#5 6#5 7#5)),
    (.rv64, Ext.all, .full 0b0010101_00111_00110_001_00101_1010011#32, some (.fmaxD 5#5 6#5 7#5))] := by decide +kernel

theorem test_decode_double_2 : AllDecode [
    (.rv64, Ext.all, .full 0b0100000_00001_00110_001_00101_1010011#32, some (.fcvtSD 5#5 6#5 0b001#3)),
    (.rv64, Ext.all, .full 0b0100001_00000_00110_001_00101_1010011#32, some (.fcvtDS 5#5 6#5 0b001#3)),
    (.rv64, Ext.all, .full 0b1010001_00111_00110_010_00101_1010011#32, some (.feqD 5#5 6#5 7#5)),
    (.rv64, Ext.all, .full 0b1010001_00111_00110_001_00101_1010011#32, some (.fltD 5#5 6#5 7#5)),
    (.rv64, Ext.all, .full 0b1010001_00111_00110_000_00101_1010011#32, some (.fleD 5#5 6#5 7#5)),
    (.rv64, Ext.all, .full 0b1110001_00000_00110_001_00101_1010011#32, some (.fclassD 5#5 6#5)),
    (.rv64, Ext.all, .full 0b1100001_00000_00110_001_00101_1010011#32, some (.fcvtWD 5#5 6#5 0b001#3)),
    (.rv64, Ext.all, .full 0b1100001_00001_00110_001_00101_1010011#32, some (.fcvtWuD 5#5 6#5 0b001#3)),
    (.rv64, Ext.all, .full 0b1101001_00000_00110_001_00101_1010011#32, some (.fcvtDW 5#5 6#5 0b001#3)),
    (.rv64, Ext.all, .full 0b1101001_00001_00110_001_00101_1010011#32, some (.fcvtDWu 5#5 6#5 0b001#3)),
    (.rv64, Ext.all, .full 0b101100101101_00110_011_00101_0000111#32, some (.fld 5#5 6#5 0b101100101101#12)),
    (.rv64, Ext.all, .full 0b1011001_00111_00110_011_01101_0100111#32, some (.fsd 6#5 7#5 0b101100101101#12)),
    (.rv64, Ext.all, .full 0b1100001_00010_00110_001_00101_1010011#32, some (.fcvtLD 5#5 6#5 0b001#3)),
    (.rv64, Ext.all, .full 0b1100001_00011_00110_001_00101_1010011#32, some (.fcvtLuD 5#5 6#5 0b001#3))] := by decide +kernel

theorem test_decode_double_3 : AllDecode [
    (.rv64, Ext.all, .full 0b1110001_00000_00110_000_00101_1010011#32, some (.fmvXD 5#5 6#5)),
    (.rv64, Ext.all, .full 0b1101001_00010_00110_001_00101_1010011#32, some (.fcvtDL 5#5 6#5 0b001#3)),
    (.rv64, Ext.all, .full 0b1101001_00011_00110_001_00101_1010011#32, some (.fcvtDLu 5#5 6#5 0b001#3)),
    (.rv64, Ext.all, .full 0b1111001_00000_00110_000_00101_1010011#32, some (.fmvDX 5#5 6#5))] := by decide +kernel

theorem test_decode_half_1 : AllDecode [
    (.rv64, Ext.all, .full 0b01000_10_00111_00110_001_00101_1000011#32, some (.fmaddH 5#5 6#5 7#5 8#5 0b001#3)),
    (.rv64, Ext.all, .full 0b01000_10_00111_00110_001_00101_1000111#32, some (.fmsubH 5#5 6#5 7#5 8#5 0b001#3)),
    (.rv64, Ext.all, .full 0b01000_10_00111_00110_001_00101_1001011#32, some (.fnmsubH 5#5 6#5 7#5 8#5 0b001#3)),
    (.rv64, Ext.all, .full 0b01000_10_00111_00110_001_00101_1001111#32, some (.fnmaddH 5#5 6#5 7#5 8#5 0b001#3)),
    (.rv64, Ext.all, .full 0b0000010_00111_00110_001_00101_1010011#32, some (.faddH 5#5 6#5 7#5 0b001#3)),
    (.rv64, Ext.all, .full 0b0000110_00111_00110_001_00101_1010011#32, some (.fsubH 5#5 6#5 7#5 0b001#3)),
    (.rv64, Ext.all, .full 0b0001010_00111_00110_001_00101_1010011#32, some (.fmulH 5#5 6#5 7#5 0b001#3)),
    (.rv64, Ext.all, .full 0b0001110_00111_00110_001_00101_1010011#32, some (.fdivH 5#5 6#5 7#5 0b001#3)),
    (.rv64, Ext.all, .full 0b0101110_00000_00110_001_00101_1010011#32, some (.fsqrtH 5#5 6#5 0b001#3)),
    (.rv64, Ext.all, .full 0b0010010_00111_00110_000_00101_1010011#32, some (.fsgnjH 5#5 6#5 7#5)),
    (.rv64, Ext.all, .full 0b0010010_00111_00110_001_00101_1010011#32, some (.fsgnjnH 5#5 6#5 7#5)),
    (.rv64, Ext.all, .full 0b0010010_00111_00110_010_00101_1010011#32, some (.fsgnjxH 5#5 6#5 7#5)),
    (.rv64, Ext.all, .full 0b0010110_00111_00110_000_00101_1010011#32, some (.fminH 5#5 6#5 7#5)),
    (.rv64, Ext.all, .full 0b0010110_00111_00110_001_00101_1010011#32, some (.fmaxH 5#5 6#5 7#5))] := by decide +kernel

theorem test_decode_half_2 : AllDecode [
    (.rv64, Ext.all, .full 0b0100000_00010_00110_001_00101_1010011#32, some (.fcvtSH 5#5 6#5 0b001#3)),
    (.rv64, Ext.all, .full 0b0100010_00000_00110_001_00101_1010011#32, some (.fcvtHS 5#5 6#5 0b001#3)),
    (.rv64, Ext.all, .full 0b0100001_00010_00110_001_00101_1010011#32, some (.fcvtDH 5#5 6#5 0b001#3)),
    (.rv64, Ext.all, .full 0b0100010_00001_00110_001_00101_1010011#32, some (.fcvtHD 5#5 6#5 0b001#3)),
    (.rv64, Ext.all, .full 0b0100011_00010_00110_001_00101_1010011#32, none),
    (.rv64, Ext.all, .full 0b0100010_00011_00110_001_00101_1010011#32, none),
    (.rv64, Ext.all, .full 0b1010010_00111_00110_010_00101_1010011#32, some (.feqH 5#5 6#5 7#5)),
    (.rv64, Ext.all, .full 0b1010010_00111_00110_001_00101_1010011#32, some (.fltH 5#5 6#5 7#5)),
    (.rv64, Ext.all, .full 0b1010010_00111_00110_000_00101_1010011#32, some (.fleH 5#5 6#5 7#5)),
    (.rv64, Ext.all, .full 0b1110010_00000_00110_001_00101_1010011#32, some (.fclassH 5#5 6#5)),
    (.rv64, Ext.all, .full 0b1100010_00000_00110_001_00101_1010011#32, some (.fcvtWH 5#5 6#5 0b001#3)),
    (.rv64, Ext.all, .full 0b1100010_00001_00110_001_00101_1010011#32, some (.fcvtWuH 5#5 6#5 0b001#3)),
    (.rv64, Ext.all, .full 0b1110010_00000_00110_000_00101_1010011#32, some (.fmvXH 5#5 6#5)),
    (.rv64, Ext.all, .full 0b1101010_00000_00110_001_00101_1010011#32, some (.fcvtHW 5#5 6#5 0b001#3))] := by decide +kernel

theorem test_decode_half_3 : AllDecode [
    (.rv64, Ext.all, .full 0b1101010_00001_00110_001_00101_1010011#32, some (.fcvtHWu 5#5 6#5 0b001#3)),
    (.rv64, Ext.all, .full 0b1111010_00000_00110_000_00101_1010011#32, some (.fmvHX 5#5 6#5)),
    (.rv64, Ext.all, .full 0b101100101101_00110_001_00101_0000111#32, some (.flh 5#5 6#5 0b101100101101#12)),
    (.rv64, Ext.all, .full 0b1011001_00111_00110_001_01101_0100111#32, some (.fsh 6#5 7#5 0b101100101101#12)),
    (.rv64, Ext.all, .full 0b1100010_00010_00110_001_00101_1010011#32, some (.fcvtLH 5#5 6#5 0b001#3)),
    (.rv64, Ext.all, .full 0b1100010_00011_00110_001_00101_1010011#32, some (.fcvtLuH 5#5 6#5 0b001#3)),
    (.rv64, Ext.all, .full 0b1101010_00010_00110_001_00101_1010011#32, some (.fcvtHL 5#5 6#5 0b001#3)),
    (.rv64, Ext.all, .full 0b1101010_00011_00110_001_00101_1010011#32, some (.fcvtHLu 5#5 6#5 0b001#3))] := by decide +kernel

theorem test_decode_compressed_1 : AllDecode [
    (.rv64, Ext.all, .half 0b000_00101101_001_00#16, some (.cAddi4spn 0b001#3 0b10110010#8)),
    (.rv64, Ext.noPushJump, .half 0b001_110_010_10_001_00#16, some (.cFld 0b001#3 0b010#3 22#5)),
    (.rv64, Ext.all, .half 0b010_011_010_01_001_00#16, some (.cLw 0b001#3 0b010#3 22#5)),
    (.rv32, Ext.all, .half 0b011_011_010_01_001_00#16, some (.cFlw 0b001#3 0b010#3 22#5)),
    (.rv64, Ext.all, .half 0b011_110_010_10_001_00#16, some (.cLd 0b001#3 0b010#3 22#5)),
    (.rv64, Ext.noPushJump, .half 0b101_110_010_10_110_00#16, some (.cFsd 0b010#3 0b110#3 22#5)),
    (.rv64, Ext.all, .half 0b110_011_010_01_110_00#16, some (.cSw 0b010#3 0b110#3 22#5)),
    (.rv32, Ext.all, .half 0b111_011_010_01_110_00#16, some (.cFsw 0b010#3 0b110#3 22#5)),
    (.rv64, Ext.all, .half 0b111_110_010_10_110_00#16, some (.cSd 0b010#3 0b110#3 22#5)),
    (.rv64, Ext.all, .half 0b000_1_00000_01100_01#16, some (.cNop 0b101100#6)),
    (.rv64, Ext.all, .half 0b000_1_00101_01100_01#16, some (.cAddi 5#5 0b101100#6)),
    (.rv32, Ext.all, .half 0b001_10110001101_01#16, some (.cJal 0b10110010110#11)),
    (.rv64, Ext.all, .half 0b001_1_00101_01100_01#16, some (.cAddiw 5#5 0b101100#6)),
    (.rv64, Ext.all, .half 0b010_1_00101_01100_01#16, some (.cLi 5#5 0b101100#6))] := by decide +kernel

theorem test_decode_compressed_2 : AllDecode [
    (.rv64, Ext.all, .half 0b011_1_00010_01010_01#16, some (.cAddi16sp 0b101100#6)),
    (.rv64, Ext.all, .half 0b011_1_00101_01100_01#16, some (.cLui 5#5 0b101100#6)),
    (.rv64, Ext.all, .half 0b100_0_00_001_10110_01#16, some (.cSrli 0b001#3 0b010110#6)),
    (.rv64, Ext.all, .half 0b100_0_01_001_10110_01#16, some (.cSrai 0b001#3 0b010110#6)),
    (.rv64, Ext.all, .half 0b100_1_10_001_01100_01#16, some (.cAndi 0b001#3 0b101100#6)),
    (.rv64, Ext.all, .half 0b100_0_11_001_00_110_01#16, some (.cSub 0b001#3 0b110#3)),
    (.rv64, Ext.all, .half 0b100_0_11_001_01_110_01#16, some (.cXor 0b001#3 0b110#3)),
    (.rv64, Ext.all, .half 0b100_0_11_001_10_110_01#16, some (.cOr 0b001#3 0b110#3)),
    (.rv64, Ext.all, .half 0b100_0_11_001_11_110_01#16, some (.cAnd 0b001#3 0b110#3)),
    (.rv64, Ext.all, .half 0b100_1_11_001_00_110_01#16, some (.cSubw 0b001#3 0b110#3)),
    (.rv64, Ext.all, .half 0b100_1_11_001_01_110_01#16, some (.cAddw 0b001#3 0b110#3)),
    (.rv64, Ext.all, .half 0b101_10110001101_01#16, some (.cJ 0b10110010110#11)),
    (.rv64, Ext.all, .half 0b110_100_010_01101_01#16, some (.cBeqz 0b010#3 0b10110010#8)),
    (.rv64, Ext.all, .half 0b111_100_010_01101_01#16, some (.cBnez 0b010#3 0b10110010#8))] := by decide +kernel

theorem test_decode_compressed_3 : AllDecode [
    (.rv64, Ext.all, .half 0b000_0_00101_10110_10#16, some (.cSlli 5#5 0b010110#6)),
    (.rv64, Ext.noPushJump, .half 0b001_1_00101_00101_10#16, some (.cFldsp 5#5 0b101100#6)),
    (.rv64, Ext.all, .half 0b010_1_00101_10010_10#16, some (.cLwsp 5#5 0b101100#6)),
    (.rv32, Ext.all, .half 0b011_1_00101_10010_10#16, some (.cFlwsp 5#5 0b101100#6)),
    (.rv64, Ext.all, .half 0b011_1_00101_00101_10#16, some (.cLdsp 5#5 0b101100#6)),
    (.rv64, Ext.all, .half 0b1000_00110_00000_10#16, some (.cJr 6#5)),
    (.rv64, Ext.all, .half 0b1000_00101_00111_10#16, some (.cMv 5#5 7#5)),
    (.rv64, Ext.all, .half 0b1001_00000_00000_10#16, some .cEbreak),
    (.rv64, Ext.all, .half 0b1001_00110_00000_10#16, some (.cJalr 6#5)),
    (.rv64, Ext.all, .half 0b1001_00101_00111_10#16, some (.cAdd 5#5 7#5)),
    (.rv64, Ext.noPushJump, .half 0b101_100101_00111_10#16, some (.cFsdsp 7#5 0b101100#6)),
    (.rv64, Ext.all, .half 0b110_110010_00111_10#16, some (.cSwsp 7#5 0b101100#6)),
    (.rv32, Ext.all, .half 0b111_110010_00111_10#16, some (.cFswsp 7#5 0b101100#6)),
    (.rv64, Ext.all, .half 0b111_100101_00111_10#16, some (.cSdsp 7#5 0b101100#6))] := by decide +kernel

theorem test_decode_code_size_1 : AllDecode [
    (.rv64, Ext.all, .half 0b100_000_010_01_001_00#16, some (.cLbu 0b001#3 0b010#3 0b10#2)),
    (.rv64, Ext.all, .half 0b100_001_010_0_1_001_00#16, some (.cLhu 0b001#3 0b010#3 0b1#1)),
    (.rv64, Ext.all, .half 0b100_001_010_1_1_001_00#16, some (.cLh 0b001#3 0b010#3 0b1#1)),
    (.rv64, Ext.all, .half 0b100_010_010_01_110_00#16, some (.cSb 0b010#3 0b110#3 0b10#2)),
    (.rv64, Ext.all, .half 0b100_011_010_0_1_110_00#16, some (.cSh 0b010#3 0b110#3 0b1#1)),
    (.rv64, Ext.all, .half 0b100_111_011_11_000_01#16, some (.cZextB 0b011#3)),
    (.rv64, Ext.all, .half 0b100_111_011_11_001_01#16, some (.cSextB 0b011#3)),
    (.rv64, Ext.all, .half 0b100_111_011_11_010_01#16, some (.cZextH 0b011#3)),
    (.rv64, Ext.all, .half 0b100_111_011_11_011_01#16, some (.cSextH 0b011#3)),
    (.rv64, Ext.all, .half 0b100_111_011_11_100_01#16, some (.cZextW 0b011#3)),
    (.rv64, Ext.all, .half 0b100_111_011_11_101_01#16, some (.cNot 0b011#3)),
    (.rv64, Ext.all, .half 0b100_111_011_10_110_01#16, some (.cMul 0b011#3 0b110#3)),
    (.rv64, Ext.all, .half 0b101_11000_1001_10_10#16, some (.cmPush 0b1001#4 0b10#2)),
    (.rv64, Ext.all, .half 0b101_11010_1001_10_10#16, some (.cmPop 0b1001#4 0b10#2))] := by decide +kernel

theorem test_decode_code_size_2 : AllDecode [
    (.rv64, Ext.all, .half 0b101_11100_1001_10_10#16, some (.cmPopretz 0b1001#4 0b10#2)),
    (.rv64, Ext.all, .half 0b101_11110_1001_10_10#16, some (.cmPopret 0b1001#4 0b10#2)),
    (.rv64, Ext.all, .half 0b101_011_001_01_110_10#16, some (.cmMvsa01 0b001#3 0b110#3)),
    (.rv64, Ext.all, .half 0b101_011_001_11_110_10#16, some (.cmMva01s 0b001#3 0b110#3)),
    (.rv64, Ext.all, .half 0b101_000_00010011_10#16, some (.cmJt 0b00010011#8)),
    (.rv64, Ext.all, .half 0b101_000_10110010_10#16, some (.cmJalt 0b10110010#8))] := by decide +kernel

theorem test_decode_muldiv_1 : AllDecode [
    (.rv64, Ext.all, .full 0b0000001_00111_00110_000_00101_0110011#32, some (.mul 5#5 6#5 7#5)),
    (.rv64, Ext.all, .full 0b0000001_00111_00110_001_00101_0110011#32, some (.mulh 5#5 6#5 7#5)),
    (.rv64, Ext.all, .full 0b0000001_00111_00110_010_00101_0110011#32, some (.mulhsu 5#5 6#5 7#5)),
    (.rv64, Ext.all, .full 0b0000001_00111_00110_011_00101_0110011#32, some (.mulhu 5#5 6#5 7#5)),
    (.rv64, Ext.all, .full 0b0000001_00111_00110_100_00101_0110011#32, some (.div 5#5 6#5 7#5)),
    (.rv64, Ext.all, .full 0b0000001_00111_00110_101_00101_0110011#32, some (.divu 5#5 6#5 7#5)),
    (.rv64, Ext.all, .full 0b0000001_00111_00110_110_00101_0110011#32, some (.rem 5#5 6#5 7#5)),
    (.rv64, Ext.all, .full 0b0000001_00111_00110_111_00101_0110011#32, some (.remu 5#5 6#5 7#5)),
    (.rv64, Ext.all, .full 0b0000001_00111_00110_000_00101_0111011#32, some (.mulw 5#5 6#5 7#5)),
    (.rv64, Ext.all, .full 0b0000001_00111_00110_100_00101_0111011#32, some (.divw 5#5 6#5 7#5)),
    (.rv64, Ext.all, .full 0b0000001_00111_00110_101_00101_0111011#32, some (.divuw 5#5 6#5 7#5)),
    (.rv64, Ext.all, .full 0b0000001_00111_00110_110_00101_0111011#32, some (.remw 5#5 6#5 7#5)),
    (.rv64, Ext.all, .full 0b0000001_00111_00110_111_00101_0111011#32, some (.remuw 5#5 6#5 7#5))] := by decide +kernel

theorem test_decode_atomic_1 : AllDecode [
    (.rv64, Ext.all, .full 0b00010_1_0_00000_00110_010_00101_0101111#32, some (.lrW 5#5 6#5 0b1#1 0b0#1)),
    (.rv64, Ext.all, .full 0b00011_1_0_00111_00110_010_00101_0101111#32, some (.scW 5#5 6#5 7#5 0b1#1 0b0#1)),
    (.rv64, Ext.all, .full 0b00001_1_0_00111_00110_010_00101_0101111#32, some (.amoswapW 5#5 6#5 7#5 0b1#1 0b0#1)),
    (.rv64, Ext.all, .full 0b00000_1_0_00111_00110_010_00101_0101111#32, some (.amoaddW 5#5 6#5 7#5 0b1#1 0b0#1)),
    (.rv64, Ext.all, .full 0b00100_1_0_00111_00110_010_00101_0101111#32, some (.amoxorW 5#5 6#5 7#5 0b1#1 0b0#1)),
    (.rv64, Ext.all, .full 0b01100_1_0_00111_00110_010_00101_0101111#32, some (.amoandW 5#5 6#5 7#5 0b1#1 0b0#1)),
    (.rv64, Ext.all, .full 0b01000_1_0_00111_00110_010_00101_0101111#32, some (.amoorW 5#5 6#5 7#5 0b1#1 0b0#1)),
    (.rv64, Ext.all, .full 0b10000_1_0_00111_00110_010_00101_0101111#32, some (.amominW 5#5 6#5 7#5 0b1#1 0b0#1)),
    (.rv64, Ext.all, .full 0b10100_1_0_00111_00110_010_00101_0101111#32, some (.amomaxW 5#5 6#5 7#5 0b1#1 0b0#1)),
    (.rv64, Ext.all, .full 0b11000_1_0_00111_00110_010_00101_0101111#32, some (.amominuW 5#5 6#5 7#5 0b1#1 0b0#1)),
    (.rv64, Ext.all, .full 0b11100_1_0_00111_00110_010_00101_0101111#32, some (.amomaxuW 5#5 6#5 7#5 0b1#1 0b0#1)),
    (.rv64, Ext.all, .full 0b00010_1_0_00000_00110_011_00101_0101111#32, some (.lrD 5#5 6#5 0b1#1 0b0#1)),
    (.rv64, Ext.all, .full 0b00011_1_0_00111_00110_011_00101_0101111#32, some (.scD 5#5 6#5 7#5 0b1#1 0b0#1)),
    (.rv64, Ext.all, .full 0b00001_1_0_00111_00110_011_00101_0101111#32, some (.amoswapD 5#5 6#5 7#5 0b1#1 0b0#1))] := by decide +kernel

theorem test_decode_atomic_2 : AllDecode [
    (.rv64, Ext.all, .full 0b00000_1_0_00111_00110_011_00101_0101111#32, some (.amoaddD 5#5 6#5 7#5 0b1#1 0b0#1)),
    (.rv64, Ext.all, .full 0b00100_1_0_00111_00110_011_00101_0101111#32, some (.amoxorD 5#5 6#5 7#5 0b1#1 0b0#1)),
    (.rv64, Ext.all, .full 0b01100_1_0_00111_00110_011_00101_0101111#32, some (.amoandD 5#5 6#5 7#5 0b1#1 0b0#1)),
    (.rv64, Ext.all, .full 0b01000_1_0_00111_00110_011_00101_0101111#32, some (.amoorD 5#5 6#5 7#5 0b1#1 0b0#1)),
    (.rv64, Ext.all, .full 0b10000_1_0_00111_00110_011_00101_0101111#32, some (.amominD 5#5 6#5 7#5 0b1#1 0b0#1)),
    (.rv64, Ext.all, .full 0b10100_1_0_00111_00110_011_00101_0101111#32, some (.amomaxD 5#5 6#5 7#5 0b1#1 0b0#1)),
    (.rv64, Ext.all, .full 0b11000_1_0_00111_00110_011_00101_0101111#32, some (.amominuD 5#5 6#5 7#5 0b1#1 0b0#1)),
    (.rv64, Ext.all, .full 0b11100_1_0_00111_00110_011_00101_0101111#32, some (.amomaxuD 5#5 6#5 7#5 0b1#1 0b0#1))] := by decide +kernel

theorem test_decode_bitmanip_1 : AllDecode [
    (.rv64, Ext.all, .full 0b0000100_00111_00110_000_00101_0111011#32, some (.addUw 5#5 6#5 7#5)),
    (.rv64, Ext.all, .full 0b0010000_00111_00110_010_00101_0110011#32, some (.sh1add 5#5 6#5 7#5)),
    (.rv64, Ext.all, .full 0b0010000_00111_00110_010_00101_0111011#32, some (.sh1addUw 5#5 6#5 7#5)),
    (.rv64, Ext.all, .full 0b0010000_00111_00110_100_00101_0110011#32, some (.sh2add 5#5 6#5 7#5)),
    (.rv64, Ext.all, .full 0b0010000_00111_00110_100_00101_0111011#32, some (.sh2addUw 5#5 6#5 7#5)),
    (.rv64, Ext.all, .full 0b0010000_00111_00110_110_00101_0110011#32, some (.sh3add 5#5 6#5 7#5)),
    (.rv64, Ext.all, .full 0b0010000_00111_00110_110_00101_0111011#32, some (.sh3addUw 5#5 6#5 7#5)),
    (.rv64, Ext.all, .full 0b000010_010110_00110_001_00101_0011011#32, some (.slliUw 5#5 6#5 0b010110#6)),
    (.rv64, Ext.all, .full 0b0100000_00111_00110_111_00101_0110011#32, some (.andn 5#5 6#5 7#5)),
    (.rv64, Ext.all, .full 0b0100000_00111_00110_110_00101_0110011#32, some (.orn 5#5 6#5 7#5)),
    (.rv64, Ext.all, .full 0b0100000_00111_00110_100_00101_0110011#32, some (.xnor 5#5 6#5 7#5)),
    (.rv64, Ext.all, .full 0b0110000_00000_00110_001_00101_0010011#32, some (.clz 5#5 6#5)),
    (.rv64, Ext.all, .full 0b0110000_00000_00110_001_00101_0011011#32, some (.clzw 5#5 6#5)),
    (.rv64, Ext.all, .full 0b0110000_00001_00110_001_00101_0010011#32, some (.ctz 5#5 6#5))] := by decide +kernel

theorem test_decode_bitmanip_2 : AllDecode [
    (.rv64, Ext.all, .full 0b0110000_00001_00110_001_00101_0011011#32, some (.ctzw 5#5 6#5)),
    (.rv64, Ext.all, .full 0b0110000_00010_00110_001_00101_0010011#32, some (.cpop 5#5 6#5)),
    (.rv64, Ext.all, .full 0b0110000_00010_00110_001_00101_0011011#32, some (.cpopw 5#5 6#5)),
    (.rv64, Ext.all, .full 0b0000101_00111_00110_110_00101_0110011#32, some (.max 5#5 6#5 7#5)),
    (.rv64, Ext.all, .full 0b0000101_00111_00110_111_00101_0110011#32, some (.maxu 5#5 6#5 7#5)),
    (.rv64, Ext.all, .full 0b0000101_00111_00110_100_00101_0110011#32, some (.min 5#5 6#5 7#5)),
    (.rv64, Ext.all, .full 0b0000101_00111_00110_101_00101_0110011#32, some (.minu 5#5 6#5 7#5)),
    (.rv64, Ext.all, .full 0b0110000_00100_00110_001_00101_0010011#32, some (.sextB 5#5 6#5)),
    (.rv64, Ext.all, .full 0b0110000_00101_00110_001_00101_0010011#32, some (.sextH 5#5 6#5)),
    (.rv32, Ext.all, .full 0b0000100_00000_00110_100_00101_0110011#32, some (.zextHRv32 5#5 6#5)),
    (.rv64, Ext.all, .full 0b0000100_00000_00110_100_00101_0111011#32, some (.zextHRv64 5#5 6#5)),
    (.rv64, Ext.all, .full 0b0110000_00111_00110_001_00101_0110011#32, some (.rol 5#5 6#5 7#5)),
    (.rv64, Ext.all, .full 0b0110000_00111_00110_001_00101_0111011#32, some (.rolw 5#5 6#5 7#5)),
    (.rv64, Ext.all, .full 0b0110000_00111_00110_101_00101_0110011#32, some (.ror 5#5 6#5 7#5))] := by decide +kernel

theorem test_decode_bitmanip_3 : AllDecode [
    (.rv64, Ext.all, .full 0b011000_010110_00110_101_00101_0010011#32, some (.rori 5#5 6#5 0b010110#6)),
    (.rv64, Ext.all, .full 0b0110000_10110_00110_101_00101_0011011#32, some (.roriw 5#5 6#5 22#5)),
    (.rv64, Ext.all, .full 0b0110000_00111_00110_101_00101_0111011#32, some (.rorw 5#5 6#5 7#5)),
    (.rv64, Ext.all, .full 0b001010000111_00110_101_00101_0010011#32, some (.orcB 5#5 6#5)),
    (.rv32, Ext.all, .full 0b011010011000_00110_101_00101_0010011#32, some (.rev8Rv32 5#5 6#5)),
    (.rv64, Ext.all, .full 0b011010111000_00110_101_00101_0010011#32, some (.rev8Rv64 5#5 6#5)),
    (.rv64, Ext.all, .full 0b0000101_00111_00110_001_00101_0110011#32, some (.clmul 5#5 6#5 7#5)),
    (.rv64, Ext.all, .full 0b0000101_00111_00110_011_00101_0110011#32, some (.clmulh 5#5 6#5 7#5)),
    (.rv64, Ext.all, .full 0b0000101_00111_00110_010_00101_0110011#32, some (.clmulr 5#5 6#5 7#5)),
    (.rv64, Ext.all, .full 0b0100100_00111_00110_001_00101_0110011#32, some (.bclr 5#5 6#5 7#5)),
    (.rv64, Ext.all, .full 0b010010_010110_00110_001_00101_0010011#32, some (.bclri 5#5 6#5 0b010110#6)),
    (.rv64, Ext.all, .full 0b0100100_00111_00110_101_00101_0110011#32, some (.bext 5#5 6#5 7#5)),
    (.rv64, Ext.all, .full 0b010010_010110_00110_101_00101_0010011#32, some (.bexti 5#5 6#5 0b010110#6)),
    (.rv64, Ext.all, .full 0b0110100_00111_00110_001_00101_0110011#32, some (.binv 5#5 6#5 7#5))] := by decide +kernel

theorem test_decode_bitmanip_4 : AllDecode [
    (.rv64, Ext.all, .full 0b011010_010110_00110_001_00101_0010011#32, some (.binvi 5#5 6#5 0b010110#6)),
    (.rv64, Ext.all, .full 0b0010100_00111_00110_001_00101_0110011#32, some (.bset 5#5 6#5 7#5)),
    (.rv64, Ext.all, .full 0b001010_010110_00110_001_00101_0010011#32, some (.bseti 5#5 6#5 0b010110#6))] := by decide +kernel

/-! One vector of 96_vectors_integer.md to 98_vectors_compressed_bitmanip_traps.md for each instruction that has one of this
shape. -/

theorem test_vectors_base_1 : AllPass [
    ⟨"I.2", .rv64, Ext.all, .lui 5#5 524288#20,
      [], [], [], [(5, 0xffffffff80000000)], [], [], 0x0, 0x1004⟩,
    ⟨"I.5", .rv64, Ext.all, .auipc 5#5 524288#20,
      [], [], [], [(5, 0xffffffff80001000)], [], [], 0x0, 0x1004⟩,
    ⟨"I.6", .rv32, Ext.all, .addi 5#5 6#5 4095#12,
      [(6, 0x0)], [], [], [(5, 0xffffffff)], [], [], 0x0, 0x1004⟩,
    ⟨"I.9", .rv32, Ext.all, .slti 5#5 6#5 4095#12,
      [(6, 0x80000000)], [], [], [(5, 0x1)], [], [], 0x0, 0x1004⟩,
    ⟨"I.13", .rv64, Ext.all, .sltiu 5#5 6#5 4095#12,
      [(6, 0xffffffff)], [], [], [(5, 0x1)], [], [], 0x0, 0x1004⟩,
    ⟨"I.14", .rv32, Ext.all, .xori 5#5 6#5 1365#12,
      [(6, 0xffff0000)], [], [], [(5, 0xffff0555)], [], [], 0x0, 0x1004⟩,
    ⟨"I.15", .rv32, Ext.all, .ori 5#5 6#5 2048#12,
      [(6, 0x123)], [], [], [(5, 0xfffff923)], [], [], 0x0, 0x1004⟩,
    ⟨"I.17", .rv64, Ext.all, .andi 5#5 6#5 4080#12,
      [(6, 0x123456789abcdeff)], [], [], [(5, 0x123456789abcdef0)], [], [], 0x0, 0x1004⟩,
    ⟨"I.19", .rv64, Ext.all, .slli 5#5 6#5 63#6,
      [(6, 0x3)], [], [], [(5, 0x8000000000000000)], [], [], 0x0, 0x1004⟩,
    ⟨"I.24", .rv64, Ext.all, .srli 5#5 6#5 63#6,
      [(6, 0x8000000000000000)], [], [], [(5, 0x1)], [], [], 0x0, 0x1004⟩,
    ⟨"I.27", .rv64, Ext.all, .srai 5#5 6#5 63#6,
      [(6, 0x8000000000000000)], [], [], [(5, 0xffffffffffffffff)], [], [], 0x0, 0x1004⟩,
    ⟨"I.29", .rv64, Ext.all, .add 5#5 6#5 6#5,
      [(6, 0x8000000000000000)], [], [], [(5, 0x0)], [], [], 0x0, 0x1004⟩,
    ⟨"I.30", .rv32, Ext.all, .sub 5#5 6#5 7#5,
      [(6, 0x0), (7, 0x1)], [], [], [(5, 0xffffffff)], [], [], 0x0, 0x1004⟩,
    ⟨"I.33", .rv64, Ext.all, .sll 5#5 6#5 7#5,
      [(6, 0x1), (7, 0x3f)], [], [], [(5, 0x8000000000000000)], [], [], 0x0, 0x1004⟩,
    ⟨"I.38", .rv32, Ext.all, .slt 5#5 6#5 7#5,
      [(6, 0xffffffff), (7, 0x1)], [], [], [(5, 0x1)], [], [], 0x0, 0x1004⟩,
    ⟨"I.39", .rv32, Ext.all, .sltu 5#5 6#5 7#5,
      [(6, 0xffffffff), (7, 0x1)], [], [], [(5, 0x0)], [], [], 0x0, 0x1004⟩,
    ⟨"I.41", .rv32, Ext.all, .xor 5#5 6#5 7#5,
      [(6, 0xff00ff00), (7, 0xff00ff0)], [], [], [(5, 0xf0f0f0f0)], [], [], 0x0, 0x1004⟩,
    ⟨"I.35", .rv32, Ext.all, .srl 5#5 6#5 7#5,
      [(6, 0xf0000000), (7, 0xffffffe4)], [], [], [(5, 0xf000000)], [], [], 0x0, 0x1004⟩,
    ⟨"I.37", .rv64, Ext.all, .sra 5#5 6#5 7#5,
      [(6, 0xf0000000), (7, 0x4)], [], [], [(5, 0xf000000)], [], [], 0x0, 0x1004⟩,
    ⟨"I.42", .rv32, Ext.all, .or 5#5 6#5 7#5,
      [(6, 0xff00ff00), (7, 0xff00ff0)], [], [], [(5, 0xfff0fff0)], [], [], 0x0, 0x1004⟩] := by decide +kernel

theorem test_vectors_base_2 : AllPass [
    ⟨"I.43", .rv32, Ext.all, .and 5#5 6#5 7#5,
      [(6, 0xff00ff00), (7, 0xff00ff0)], [], [], [(5, 0xf000f00)], [], [], 0x0, 0x1004⟩,
    ⟨"I.45", .rv32, Ext.all, .fence 0#5 0#5 0#4 3#4 3#4,
      [], [], [], [], [], [], 0x0, 0x1004⟩,
    ⟨"I.48", .rv32, Ext.all, .fenceI 0#5 0#5 0#12,
      [], [], [], [], [], [], 0x0, 0x1004⟩,
    ⟨"SYS.50", .rv32, Ext.all, .sfenceVma 0#5 0#5,
      [], [], [], [], [], [], 0x0, 0x1004⟩,
    ⟨"LS.1", .rv32, Ext.all, .lb 5#5 6#5 0#12,
      [(6, 0x2000)], [], [(0x2000, 0xf7e6d5c4b3a29180, 8)], [(5, 0xffffff80)], [], [], 0x0, 0x1004⟩,
    ⟨"LS.3", .rv32, Ext.all, .lh 5#5 6#5 2#12,
      [(6, 0x2000)], [], [(0x2000, 0xf7e6d5c4b3a29180, 8)], [(5, 0xffffb3a2)], [], [], 0x0, 0x1004⟩,
    ⟨"LS.6", .rv64, Ext.all, .lw 5#5 6#5 4#12,
      [(6, 0x2000)], [], [(0x2000, 0xf7e6d5c4b3a29180, 8)], [(5, 0xfffffffff7e6d5c4)], [], [], 0x0, 0x1004⟩,
    ⟨"LS.2", .rv32, Ext.all, .lbu 5#5 6#5 0#12,
      [(6, 0x2000)], [], [(0x2000, 0xf7e6d5c4b3a29180, 8)], [(5, 0x80)], [], [], 0x0, 0x1004⟩,
    ⟨"LS.4", .rv32, Ext.all, .lhu 5#5 6#5 2#12,
      [(6, 0x2000)], [], [(0x2000, 0xf7e6d5c4b3a29180, 8)], [(5, 0xb3a2)], [], [], 0x0, 0x1004⟩,
    ⟨"LS.14", .rv32, Ext.all, .sb 6#5 7#5 1#12,
      [(6, 0x2000), (7, 0x12345678)], [], [(0x2000, 0x00000000, 4)], [], [], [(0x2001, 0x78, 1)], 0x0, 0x1004⟩,
    ⟨"LS.15", .rv32, Ext.all, .sh 6#5 7#5 2#12,
      [(6, 0x2000), (7, 0x12345678)], [], [(0x2000, 0x00000000, 4)], [], [], [(0x2002, 0x5678, 2)], 0x0, 0x1004⟩,
    ⟨"LS.17", .rv64, Ext.all, .sw 6#5 7#5 0#12,
      [(6, 0x2000), (7, 0xaabbccdd12345678)], [], [(0x2000, 0x0000000000000000, 8)], [], [], [(0x2000, 0x12345678, 4)], 0x0, 0x1004⟩,
    ⟨"CT.1", .rv32, Ext.all, .jal 1#5 1024#20,
      [], [], [], [(1, 0x1004)], [], [], 0x0, 0x1800⟩,
    ⟨"CT.13", .rv64, Ext.all, .jalr 1#5 6#5 4092#12,
      [(6, 0x0)], [], [], [(1, 0x1004)], [], [], 0x0, 0xfffffffffffffffc⟩,
    ⟨"CT.14", .rv32, Ext.all, .beq 6#5 7#5 8#12,
      [(6, 0x5), (7, 0x5)], [], [], [], [], [], 0x0, 0x1010⟩,
    ⟨"CT.16", .rv32, Ext.all, .bne 6#5 7#5 4088#12,
      [(6, 0x5), (7, 0x6)], [], [], [], [], [], 0x0, 0xff0⟩,
    ⟨"CT.30", .rv64, Ext.all, .blt 6#5 7#5 8#12,
      [(6, 0xffffffff), (7, 0x0)], [], [], [], [], [], 0x0, 0x1004⟩,
    ⟨"CT.20", .rv32, Ext.all, .bge 6#5 7#5 8#12,
      [(6, 0x5), (7, 0x5)], [], [], [], [], [], 0x0, 0x1010⟩,
    ⟨"CT.22", .rv32, Ext.all, .bltu 6#5 7#5 8#12,
      [(6, 0x0), (7, 0xffffffff)], [], [], [], [], [], 0x0, 0x1010⟩] := by decide +kernel

theorem test_vectors_base_3 : AllPass [
    ⟨"CT.24", .rv32, Ext.all, .bgeu 6#5 7#5 8#12,
      [(6, 0xffffffff), (7, 0x0)], [], [], [], [], [], 0x0, 0x1010⟩,
    ⟨"W.1", .rv64, Ext.all, .addiw 5#5 6#5 1#12,
      [(6, 0x7fffffff)], [], [], [(5, 0xffffffff80000000)], [], [], 0x0, 0x1004⟩,
    ⟨"W.3", .rv64, Ext.all, .slliw 5#5 6#5 31#5,
      [(6, 0x1)], [], [], [(5, 0xffffffff80000000)], [], [], 0x0, 0x1004⟩,
    ⟨"W.5", .rv64, Ext.all, .srliw 5#5 6#5 1#5,
      [(6, 0xffffffff80000000)], [], [], [(5, 0x40000000)], [], [], 0x0, 0x1004⟩,
    ⟨"W.7", .rv64, Ext.all, .sraiw 5#5 6#5 4#5,
      [(6, 0x80000000)], [], [], [(5, 0xfffffffff8000000)], [], [], 0x0, 0x1004⟩,
    ⟨"W.10", .rv64, Ext.all, .addw 5#5 6#5 7#5,
      [(6, 0x7fffffff), (7, 0x1)], [], [], [(5, 0xffffffff80000000)], [], [], 0x0, 0x1004⟩,
    ⟨"W.12", .rv64, Ext.all, .subw 5#5 6#5 7#5,
      [(6, 0x0), (7, 0x1)], [], [], [(5, 0xffffffffffffffff)], [], [], 0x0, 0x1004⟩,
    ⟨"W.14", .rv64, Ext.all, .sllw 5#5 6#5 7#5,
      [(6, 0x1), (7, 0x3f)], [], [], [(5, 0xffffffff80000000)], [], [], 0x0, 0x1004⟩,
    ⟨"W.15", .rv64, Ext.all, .srlw 5#5 6#5 7#5,
      [(6, 0xffffffff), (7, 0x20)], [], [], [(5, 0xffffffffffffffff)], [], [], 0x0, 0x1004⟩,
    ⟨"W.17", .rv64, Ext.all, .sraw 5#5 6#5 7#5,
      [(6, 0x80000000), (7, 0x1f)], [], [], [(5, 0xffffffffffffffff)], [], [], 0x0, 0x1004⟩,
    ⟨"LS.7", .rv64, Ext.all, .lwu 5#5 6#5 4#12,
      [(6, 0x2000)], [], [(0x2000, 0xf7e6d5c4b3a29180, 8)], [(5, 0xf7e6d5c4)], [], [], 0x0, 0x1004⟩,
    ⟨"LS.8", .rv64, Ext.all, .ld 5#5 6#5 0#12,
      [(6, 0x2000)], [], [(0x2000, 0xf7e6d5c4b3a29180, 8)], [(5, 0xf7e6d5c4b3a29180)], [], [], 0x0, 0x1004⟩,
    ⟨"LS.18", .rv64, Ext.all, .sd 6#5 7#5 0#12,
      [(6, 0x2000), (7, 0xaabbccdd12345678)], [], [(0x2000, 0x0000000000000000, 8)], [], [], [(0x2000, 0xaabbccdd12345678, 8)], 0x0, 0x1004⟩] := by decide +kernel

theorem test_vectors_single_1 : AllPass [
    ⟨"F.49", .rv32, noD, .fmaddS 5#5 6#5 7#5 8#5 0#3,
      [], [(6, 0x7f800000), (7, 0x0), (8, 0x7fc00000)], [], [], [(5, 0x7fc00000)], [], 0x10, 0x1004⟩,
    ⟨"F.46", .rv32, noD, .fmsubS 5#5 6#5 7#5 8#5 0#3,
      [], [(6, 0x40000000), (7, 0x40400000), (8, 0x3f800000)], [], [], [(5, 0x40a00000)], [], 0x0, 0x1004⟩,
    ⟨"F.47", .rv32, noD, .fnmsubS 5#5 6#5 7#5 8#5 0#3,
      [], [(6, 0x40000000), (7, 0x40400000), (8, 0x3f800000)], [], [], [(5, 0xc0a00000)], [], 0x0, 0x1004⟩,
    ⟨"F.48", .rv32, noD, .fnmaddS 5#5 6#5 7#5 8#5 0#3,
      [], [(6, 0x40000000), (7, 0x40400000), (8, 0x3f800000)], [], [], [(5, 0xc0e00000)], [], 0x0, 0x1004⟩,
    ⟨"F.2", .rv32, noD, .faddS 5#5 6#5 7#5 0#3,
      [], [(6, 0x3dcccccd), (7, 0x3e4ccccd)], [], [], [(5, 0x3e99999a)], [], 0x1, 0x1004⟩,
    ⟨"F.25", .rv32, noD, .fsubS 5#5 6#5 7#5 0#3,
      [], [(6, 0x7f800000), (7, 0x7f800000)], [], [], [(5, 0x7fc00000)], [], 0x10, 0x1004⟩,
    ⟨"F.28", .rv32, noD, .fmulS 5#5 6#5 7#5 0#3,
      [], [(6, 0x800001), (7, 0x3f000000)], [], [], [(5, 0x400000)], [], 0x3, 0x1004⟩,
    ⟨"F.33", .rv32, noD, .fdivS 5#5 6#5 7#5 0#3,
      [], [(6, 0x3f800000), (7, 0x40400000)], [], [], [(5, 0x3eaaaaab)], [], 0x1, 0x1004⟩,
    ⟨"F.40", .rv32, noD, .fsqrtS 5#5 6#5 0#3,
      [], [(6, 0x40000000)], [], [], [(5, 0x3fb504f3)], [], 0x1, 0x1004⟩,
    ⟨"F.53", .rv32, noD, .fsgnjS 5#5 6#5 7#5,
      [], [(6, 0x3fc00000), (7, 0xbf800000)], [], [], [(5, 0xbfc00000)], [], 0x0, 0x1004⟩,
    ⟨"F.54", .rv32, noD, .fsgnjnS 5#5 6#5 6#5,
      [], [(6, 0x3fc00000)], [], [], [(5, 0xbfc00000)], [], 0x0, 0x1004⟩,
    ⟨"F.55", .rv32, noD, .fsgnjxS 5#5 6#5 6#5,
      [], [(6, 0xbfc00000)], [], [], [(5, 0x3fc00000)], [], 0x0, 0x1004⟩,
    ⟨"F.59", .rv32, noD, .fminS 5#5 6#5 7#5,
      [], [(6, 0x3f800000), (7, 0x40000000)], [], [], [(5, 0x3f800000)], [], 0x0, 0x1004⟩,
    ⟨"F.64", .rv32, noD, .fmaxS 5#5 6#5 7#5,
      [], [(6, 0x7f800001), (7, 0x3f800000)], [], [], [(5, 0x3f800000)], [], 0x10, 0x1004⟩,
    ⟨"F.67", .rv32, noD, .fcvtWS 5#5 6#5 0#3,
      [], [(6, 0x40200000)], [], [(5, 0x2)], [], [], 0x1, 0x1004⟩,
    ⟨"F.83", .rv32, noD, .fcvtWuS 5#5 6#5 1#3,
      [], [(6, 0xbf800000)], [], [(5, 0x0)], [], [], 0x10, 0x1004⟩,
    ⟨"F.120", .rv64, Ext.all, .fmvXW 5#5 6#5,
      [], [(6, 0xffffffffbf800000)], [], [(5, 0xffffffffbf800000)], [], [], 0x0, 0x1004⟩,
    ⟨"F.108", .rv32, noD, .feqS 5#5 6#5 7#5,
      [], [(6, 0x3f800000), (7, 0x7f800001)], [], [(5, 0x0)], [], [], 0x10, 0x1004⟩,
    ⟨"F.109", .rv32, noD, .fltS 5#5 6#5 7#5,
      [], [(6, 0x3f800000), (7, 0x40000000)], [], [(5, 0x1)], [], [], 0x0, 0x1004⟩,
    ⟨"F.111", .rv32, noD, .fleS 5#5 6#5 7#5,
      [], [(6, 0x40000000), (7, 0x40000000)], [], [(5, 0x1)], [], [], 0x0, 0x1004⟩] := by decide +kernel

theorem test_vectors_single_2 : AllPass [
    ⟨"F.118", .rv32, noD, .fclassS 5#5 6#5,
      [], [(6, 0x1)], [], [(5, 0x20)], [], [], 0x0, 0x1004⟩,
    ⟨"F.96", .rv32, noD, .fcvtSW 5#5 6#5 0#3,
      [(6, 0x1000001)], [], [], [], [(5, 0x4b800000)], [], 0x1, 0x1004⟩,
    ⟨"F.99", .rv32, noD, .fcvtSWu 5#5 6#5 0#3,
      [(6, 0xffffffff)], [], [], [], [(5, 0x4f800000)], [], 0x1, 0x1004⟩,
    ⟨"F.123", .rv64, Ext.all, .fmvWX 5#5 6#5,
      [(6, 0xdeadbeef3fc00000)], [], [], [], [(5, 0xffffffff3fc00000)], [], 0x0, 0x1004⟩,
    ⟨"F.128", .rv64, Ext.all, .flw 5#5 6#5 4#12,
      [(6, 0x2000)], [], [(0x2000, 0x7f80000100000000, 8)], [], [(5, 0xffffffff7f800001)], [], 0x0, 0x1004⟩,
    ⟨"F.129", .rv32, noD, .fsw 6#5 7#5 4092#12,
      [(6, 0x2004)], [(7, 0x3fc00000)], [(0x2000, 0xaaaaaaaa, 4)], [], [], [(0x2000, 0x3fc00000, 4)], 0x0, 0x1004⟩,
    ⟨"F.90", .rv64, noD, .fcvtLS 5#5 6#5 1#3,
      [], [(6, 0x5f000000)], [], [(5, 0x7fffffffffffffff)], [], [], 0x10, 0x1004⟩,
    ⟨"F.93", .rv64, noD, .fcvtLuS 5#5 6#5 1#3,
      [], [(6, 0x5f800000)], [], [(5, 0xffffffffffffffff)], [], [], 0x10, 0x1004⟩,
    ⟨"F.105", .rv64, noD, .fcvtSL 5#5 6#5 1#3,
      [(6, 0x7fffffffffffffff)], [], [], [], [(5, 0x5effffff)], [], 0x1, 0x1004⟩,
    ⟨"F.104", .rv64, noD, .fcvtSLu 5#5 6#5 0#3,
      [(6, 0xffffffffffffffff)], [], [], [], [(5, 0x5f800000)], [], 0x1, 0x1004⟩] := by decide +kernel

theorem test_vectors_double_1 : AllPass [
    ⟨"D.12", .rv32, Ext.all, .fmaddD 5#5 6#5 7#5 8#5 0#3,
      [], [(6, 0x4000000000000000), (7, 0x4008000000000000), (8, 0x3ff0000000000000)], [], [], [(5, 0x401c000000000000)], [], 0x0, 0x1004⟩,
    ⟨"D.13", .rv32, Ext.all, .fmsubD 5#5 6#5 7#5 8#5 0#3,
      [], [(6, 0x4000000000000000), (7, 0x4008000000000000), (8, 0x3ff0000000000000)], [], [], [(5, 0x4014000000000000)], [], 0x0, 0x1004⟩,
    ⟨"D.14", .rv32, Ext.all, .fnmsubD 5#5 6#5 7#5 8#5 0#3,
      [], [(6, 0x4000000000000000), (7, 0x4008000000000000), (8, 0x3ff0000000000000)], [], [], [(5, 0xc014000000000000)], [], 0x0, 0x1004⟩,
    ⟨"D.15", .rv32, Ext.all, .fnmaddD 5#5 6#5 7#5 8#5 0#3,
      [], [(6, 0x4000000000000000), (7, 0x4008000000000000), (8, 0x3ff0000000000000)], [], [], [(5, 0xc01c000000000000)], [], 0x0, 0x1004⟩,
    ⟨"D.1", .rv32, Ext.all, .faddD 5#5 6#5 7#5 0#3,
      [], [(6, 0x3fb999999999999a), (7, 0x3fc999999999999a)], [], [], [(5, 0x3fd3333333333334)], [], 0x1, 0x1004⟩,
    ⟨"D.4", .rv32, Ext.all, .fsubD 5#5 6#5 7#5 2#3,
      [], [(6, 0x3ff0000000000000), (7, 0x3ff0000000000000)], [], [], [(5, 0x8000000000000000)], [], 0x0, 0x1004⟩,
    ⟨"D.6", .rv32, Ext.all, .fmulD 5#5 6#5 7#5 0#3,
      [], [(6, 0x1), (7, 0x3fe0000000000000)], [], [], [(5, 0x0)], [], 0x3, 0x1004⟩,
    ⟨"D.7", .rv32, Ext.all, .fdivD 5#5 6#5 7#5 0#3,
      [], [(6, 0x3ff0000000000000), (7, 0x4008000000000000)], [], [], [(5, 0x3fd5555555555555)], [], 0x1, 0x1004⟩,
    ⟨"D.10", .rv32, Ext.all, .fsqrtD 5#5 6#5 0#3,
      [], [(6, 0x4000000000000000)], [], [], [(5, 0x3ff6a09e667f3bcd)], [], 0x1, 0x1004⟩,
    ⟨"D.17", .rv32, Ext.all, .fsgnjD 5#5 6#5 7#5,
      [], [(6, 0x4004000000000000), (7, 0xbff0000000000000)], [], [], [(5, 0xc004000000000000)], [], 0x0, 0x1004⟩,
    ⟨"D.18", .rv32, Ext.all, .fsgnjnD 5#5 6#5 6#5,
      [], [(6, 0x4004000000000000)], [], [], [(5, 0xc004000000000000)], [], 0x0, 0x1004⟩,
    ⟨"D.19", .rv32, Ext.all, .fsgnjxD 5#5 6#5 6#5,
      [], [(6, 0xc004000000000000)], [], [], [(5, 0x4004000000000000)], [], 0x0, 0x1004⟩,
    ⟨"D.21", .rv32, Ext.all, .fminD 5#5 6#5 7#5,
      [], [(6, 0x8000000000000000), (7, 0x0)], [], [], [(5, 0x8000000000000000)], [], 0x0, 0x1004⟩,
    ⟨"D.22", .rv32, Ext.all, .fmaxD 5#5 6#5 7#5,
      [], [(6, 0x7ff0000000000001), (7, 0x3ff0000000000000)], [], [], [(5, 0x3ff0000000000000)], [], 0x10, 0x1004⟩,
    ⟨"D.25", .rv32, Ext.all, .fcvtSD 5#5 6#5 0#3,
      [], [(6, 0x3fb999999999999a)], [], [], [(5, 0xffffffff3dcccccd)], [], 0x1, 0x1004⟩,
    ⟨"D.35", .rv32, Ext.all, .fcvtDS 5#5 6#5 0#3,
      [], [(6, 0xffffffff7f800001)], [], [], [(5, 0x7ff8000000000000)], [], 0x10, 0x1004⟩,
    ⟨"D.38", .rv32, Ext.all, .feqD 5#5 6#5 7#5,
      [], [(6, 0x3ff0000000000000), (7, 0x3ff0000000000000)], [], [(5, 0x1)], [], [], 0x0, 0x1004⟩,
    ⟨"D.40", .rv32, Ext.all, .fltD 5#5 6#5 7#5,
      [], [(6, 0xbff0000000000000), (7, 0x3ff0000000000000)], [], [(5, 0x1)], [], [], 0x0, 0x1004⟩,
    ⟨"D.44", .rv32, Ext.all, .fleD 5#5 6#5 7#5,
      [], [(6, 0x7ff0000000000001), (7, 0x3ff0000000000000)], [], [(5, 0x0)], [], [], 0x10, 0x1004⟩,
    ⟨"D.45", .rv32, Ext.all, .fclassD 5#5 6#5,
      [], [(6, 0xfff0000000000000)], [], [(5, 0x1)], [], [], 0x0, 0x1004⟩] := by decide +kernel

theorem test_vectors_double_2 : AllPass [
    ⟨"D.48", .rv32, Ext.all, .fcvtWD 5#5 6#5 0#3,
      [], [(6, 0xc004000000000000)], [], [(5, 0xfffffffe)], [], [], 0x1, 0x1004⟩,
    ⟨"D.52", .rv32, Ext.all, .fcvtWuD 5#5 6#5 1#3,
      [], [(6, 0xbff0000000000000)], [], [(5, 0x0)], [], [], 0x10, 0x1004⟩,
    ⟨"D.54", .rv32, Ext.all, .fcvtDW 5#5 6#5 0#3,
      [(6, 0x80000000)], [], [], [], [(5, 0xc1e0000000000000)], [], 0x0, 0x1004⟩,
    ⟨"D.55", .rv32, Ext.all, .fcvtDWu 5#5 6#5 0#3,
      [(6, 0xffffffff)], [], [], [], [(5, 0x41efffffffe00000)], [], 0x0, 0x1004⟩,
    ⟨"D.68", .rv32, Ext.all, .fld 5#5 6#5 8#12,
      [(6, 0x2000)], [], [(0x2000, 0x400921fb54442d180000000000000000, 16)], [], [(5, 0x400921fb54442d18)], [], 0x0, 0x1004⟩,
    ⟨"D.70", .rv64, Ext.all, .fsd 6#5 7#5 0#12,
      [(6, 0x2000)], [(7, 0xffffffff3fc00000)], [(0x2000, 0xaaaaaaaaaaaaaaaa, 8)], [], [], [(0x2000, 0xffffffff3fc00000, 8)], 0x0, 0x1004⟩,
    ⟨"D.57", .rv64, Ext.all, .fcvtLD 5#5 6#5 1#3,
      [], [(6, 0x43e0000000000000)], [], [(5, 0x7fffffffffffffff)], [], [], 0x10, 0x1004⟩,
    ⟨"D.60", .rv64, Ext.all, .fcvtLuD 5#5 6#5 1#3,
      [], [(6, 0xfff0000000000000)], [], [(5, 0x0)], [], [], 0x10, 0x1004⟩,
    ⟨"D.64", .rv64, Ext.all, .fmvXD 5#5 6#5,
      [], [(6, 0xc004000000000000)], [], [(5, 0xc004000000000000)], [], [], 0x0, 0x1004⟩,
    ⟨"D.61", .rv64, Ext.all, .fcvtDL 5#5 6#5 0#3,
      [(6, 0x20000000000001)], [], [], [], [(5, 0x4340000000000000)], [], 0x1, 0x1004⟩,
    ⟨"D.63", .rv64, Ext.all, .fcvtDLu 5#5 6#5 0#3,
      [(6, 0xffffffffffffffff)], [], [], [], [(5, 0x43f0000000000000)], [], 0x1, 0x1004⟩,
    ⟨"D.65", .rv64, Ext.all, .fmvDX 5#5 6#5,
      [(6, 0x7ff0000000000001)], [], [], [], [(5, 0x7ff0000000000001)], [], 0x0, 0x1004⟩] := by decide +kernel

theorem test_vectors_half_1 : AllPass [
    ⟨"H.16", .rv32, noD, .fmaddH 5#5 6#5 7#5 8#5 0#3,
      [], [(6, 0xffff4000), (7, 0xffff4200), (8, 0xffff3c00)], [], [], [(5, 0xffff4700)], [], 0x0, 0x1004⟩,
    ⟨"H.17", .rv32, noD, .fmsubH 5#5 6#5 7#5 8#5 0#3,
      [], [(6, 0xffff4000), (7, 0xffff4200), (8, 0xffff3c00)], [], [], [(5, 0xffff4500)], [], 0x0, 0x1004⟩,
    ⟨"H.18", .rv32, noD, .fnmsubH 5#5 6#5 7#5 8#5 0#3,
      [], [(6, 0xffff4000), (7, 0xffff4200), (8, 0xffff3c00)], [], [], [(5, 0xffffc500)], [], 0x0, 0x1004⟩,
    ⟨"H.19", .rv32, noD, .fnmaddH 5#5 6#5 7#5 8#5 0#3,
      [], [(6, 0xffff4000), (7, 0xffff4200), (8, 0xffff3c00)], [], [], [(5, 0xffffc700)], [], 0x0, 0x1004⟩,
    ⟨"H.2", .rv32, noD, .faddH 5#5 6#5 7#5 0#3,
      [], [(6, 0xffff6800), (7, 0xffff3c00)], [], [], [(5, 0xffff6800)], [], 0x1, 0x1004⟩,
    ⟨"H.9", .rv32, noD, .fsubH 5#5 6#5 7#5 0#3,
      [], [(6, 0xffff4200), (7, 0xffff3c00)], [], [], [(5, 0xffff4000)], [], 0x0, 0x1004⟩,
    ⟨"H.11", .rv32, noD, .fmulH 5#5 6#5 7#5 0#3,
      [], [(6, 0xffff0001), (7, 0xffff3800)], [], [], [(5, 0xffff0000)], [], 0x3, 0x1004⟩,
    ⟨"H.12", .rv32, noD, .fdivH 5#5 6#5 7#5 0#3,
      [], [(6, 0xffff3c00), (7, 0xffff4200)], [], [], [(5, 0xffff3555)], [], 0x1, 0x1004⟩,
    ⟨"H.14", .rv32, noD, .fsqrtH 5#5 6#5 0#3,
      [], [(6, 0xffff4000)], [], [], [(5, 0xffff3da8)], [], 0x1, 0x1004⟩,
    ⟨"H.21", .rv32, noD, .fsgnjH 5#5 6#5 7#5,
      [], [(6, 0xffff3e00), (7, 0xffffbc00)], [], [], [(5, 0xffffbe00)], [], 0x0, 0x1004⟩,
    ⟨"H.22", .rv32, noD, .fsgnjnH 5#5 6#5 6#5,
      [], [(6, 0xffff3e00)], [], [], [(5, 0xffffbe00)], [], 0x0, 0x1004⟩,
    ⟨"H.23", .rv32, noD, .fsgnjxH 5#5 6#5 6#5,
      [], [(6, 0xffffbe00)], [], [], [(5, 0xffff3e00)], [], 0x0, 0x1004⟩,
    ⟨"H.26", .rv32, noD, .fminH 5#5 6#5 7#5,
      [], [(6, 0xffff7c01), (7, 0xffff7e00)], [], [], [(5, 0xffff7e00)], [], 0x10, 0x1004⟩,
    ⟨"H.25", .rv32, noD, .fmaxH 5#5 6#5 7#5,
      [], [(6, 0xffff7e00), (7, 0xffff3c00)], [], [], [(5, 0xffff3c00)], [], 0x0, 0x1004⟩,
    ⟨"H.37", .rv32, noD, .fcvtSH 5#5 6#5 0#3,
      [], [(6, 0xffff7c01)], [], [], [(5, 0x7fc00000)], [], 0x10, 0x1004⟩,
    ⟨"H.28", .rv32, noD, .fcvtHS 5#5 6#5 0#3,
      [], [(6, 0x477ff000)], [], [], [(5, 0xffff7c00)], [], 0x5, 0x1004⟩,
    ⟨"H.38", .rv32, Ext.all, .fcvtDH 5#5 6#5 0#3,
      [], [(6, 0xffffffffffff2e66)], [], [], [(5, 0x3fb9980000000000)], [], 0x0, 0x1004⟩,
    ⟨"H.39", .rv32, Ext.all, .fcvtHD 5#5 6#5 0#3,
      [], [(6, 0x3fb999999999999a)], [], [], [(5, 0xffffffffffff2e66)], [], 0x1, 0x1004⟩,
    ⟨"H.45", .rv32, noD, .feqH 5#5 6#5 7#5,
      [], [(6, 0xffff7c01), (7, 0xffff3c00)], [], [(5, 0x0)], [], [], 0x10, 0x1004⟩,
    ⟨"H.46", .rv32, noD, .fltH 5#5 6#5 7#5,
      [], [(6, 0xffffbc00), (7, 0xffff3c00)], [], [(5, 0x1)], [], [], 0x0, 0x1004⟩] := by decide +kernel

theorem test_vectors_half_2 : AllPass [
    ⟨"H.49", .rv32, noD, .fleH 5#5 6#5 7#5,
      [], [(6, 0xffff4000), (7, 0xffff4000)], [], [(5, 0x1)], [], [], 0x0, 0x1004⟩,
    ⟨"H.51", .rv32, noD, .fclassH 5#5 6#5,
      [], [(6, 0xfffffc00)], [], [(5, 0x1)], [], [], 0x0, 0x1004⟩,
    ⟨"H.55", .rv32, noD, .fcvtWH 5#5 6#5 0#3,
      [], [(6, 0xffffc100)], [], [(5, 0xfffffffe)], [], [], 0x1, 0x1004⟩,
    ⟨"H.60", .rv64, noD, .fcvtWuH 5#5 6#5 1#3,
      [], [(6, 0xffff7e00)], [], [(5, 0xffffffffffffffff)], [], [], 0x10, 0x1004⟩,
    ⟨"H.75", .rv64, noD, .fmvXH 5#5 6#5,
      [], [(6, 0xffffbc00)], [], [(5, 0xffffffffffffbc00)], [], [], 0x0, 0x1004⟩,
    ⟨"H.61", .rv32, noD, .fcvtHW 5#5 6#5 0#3,
      [(6, 0x801)], [], [], [], [(5, 0xffff6800)], [], 0x1, 0x1004⟩,
    ⟨"H.65", .rv32, noD, .fcvtHWu 5#5 6#5 0#3,
      [(6, 0xffffffff)], [], [], [], [(5, 0xffff7c00)], [], 0x5, 0x1004⟩,
    ⟨"H.78", .rv64, Ext.all, .fmvHX 5#5 6#5,
      [(6, 0x12343c00)], [], [], [], [(5, 0xffffffffffff3c00)], [], 0x0, 0x1004⟩,
    ⟨"H.80", .rv64, Ext.all, .flh 5#5 6#5 2#12,
      [(6, 0x2000)], [], [(0x2000, 0x7c010000, 4)], [], [(5, 0xffffffffffff7c01)], [], 0x0, 0x1004⟩,
    ⟨"H.81", .rv32, noD, .fsh 6#5 7#5 4094#12,
      [(6, 0x2002)], [(7, 0xffff3e00)], [(0x2000, 0xaaaaaaaa, 4)], [], [], [(0x2000, 0x3e00, 2)], 0x0, 0x1004⟩,
    ⟨"H.67", .rv64, noD, .fcvtLH 5#5 6#5 0#3,
      [], [(6, 0xffffc100)], [], [(5, 0xfffffffffffffffe)], [], [], 0x1, 0x1004⟩,
    ⟨"H.70", .rv64, noD, .fcvtLuH 5#5 6#5 1#3,
      [], [(6, 0xffffbc00)], [], [(5, 0x0)], [], [], 0x10, 0x1004⟩,
    ⟨"H.71", .rv64, noD, .fcvtHL 5#5 6#5 0#3,
      [(6, 0xfffffffffffff7ff)], [], [], [], [(5, 0xffffe800)], [], 0x1, 0x1004⟩,
    ⟨"H.72", .rv64, noD, .fcvtHLu 5#5 6#5 0#3,
      [(6, 0xffffffffffffffff)], [], [], [], [(5, 0xffff7c00)], [], 0x5, 0x1004⟩] := by decide +kernel

theorem test_vectors_compressed_1 : AllPass [
    ⟨"C.1", .rv32, Ext.all, .cAddi4spn 1#3 10#8,
      [(2, 0x2000)], [], [], [(9, 0x2028)], [], [], 0x0, 0x1002⟩,
    ⟨"C.13", .rv32, Ext.noPushJump, .cFld 1#3 2#3 1#5,
      [(10, 0x2000)], [], [(0x2008, 0xc004000000000000, 8)], [], [(9, 0xc004000000000000)], [], 0x0, 0x1002⟩,
    ⟨"C.4", .rv64, Ext.all, .cLw 1#3 2#3 31#5,
      [(10, 0x2000)], [], [(0x207c, 0xb3a29180, 4)], [(9, 0xffffffffb3a29180)], [], [], 0x0, 0x1002⟩,
    ⟨"C.10", .rv32, noD, .cFlw 1#3 2#3 2#5,
      [(10, 0x2000)], [], [(0x2008, 0x3fc00000, 4)], [], [(9, 0x3fc00000)], [], 0x0, 0x1002⟩,
    ⟨"C.6", .rv64, Ext.all, .cLd 1#3 2#3 2#5,
      [(10, 0x2000)], [], [(0x2010, 0x0807060504030201, 8)], [(9, 0x807060504030201)], [], [], 0x0, 0x1002⟩,
    ⟨"C.14", .rv64, Ext.noPushJump, .cFsd 2#3 1#3 1#5,
      [(10, 0x2000)], [(9, 0x3ff8000000000000)], [(0x2008, 0xaaaaaaaaaaaaaaaa, 8)], [], [], [(0x2008, 0x3ff8000000000000, 8)], 0x0, 0x1002⟩,
    ⟨"C.7", .rv32, Ext.all, .cSw 2#3 1#3 1#5,
      [(9, 0x12345678), (10, 0x2000)], [], [(0x2000, 0x0000000000000000, 8)], [], [], [(0x2004, 0x12345678, 4)], 0x0, 0x1002⟩,
    ⟨"C.11", .rv32, noD, .cFsw 2#3 1#3 2#5,
      [(10, 0x2000)], [(9, 0x40200000)], [(0x2008, 0xaaaaaaaa, 4)], [], [], [(0x2008, 0x40200000, 4)], 0x0, 0x1002⟩,
    ⟨"C.8", .rv64, Ext.all, .cSd 2#3 1#3 31#5,
      [(9, 0x1122334455667788), (10, 0x2000)], [], [(0x20f8, 0x0000000000000000, 8)], [], [], [(0x20f8, 0x1122334455667788, 8)], 0x0, 0x1002⟩,
    ⟨"C.16", .rv32, Ext.all, .cNop 0#6,
      [], [], [], [], [], [], 0x0, 0x1002⟩,
    ⟨"C.19", .rv64, Ext.all, .cAddi 5#5 31#6,
      [(5, 0x7fffffffffffffff)], [], [], [(5, 0x800000000000001e)], [], [], 0x0, 0x1002⟩,
    ⟨"C.21", .rv32, Ext.all, .cJal 2045#11,
      [], [], [], [(1, 0x1002)], [], [], 0x0, 0xffa⟩,
    ⟨"C.23", .rv64, Ext.all, .cAddiw 5#5 63#6,
      [(5, 0x80000000)], [], [], [(5, 0x7fffffff)], [], [], 0x0, 0x1002⟩,
    ⟨"C.27", .rv32, Ext.all, .cLi 5#5 32#6,
      [], [], [], [(5, 0xffffffe0)], [], [], 0x0, 0x1002⟩,
    ⟨"C.29", .rv32, Ext.all, .cAddi16sp 32#6,
      [(2, 0x2000)], [], [], [(2, 0x1e00)], [], [], 0x0, 0x1002⟩,
    ⟨"C.33", .rv64, Ext.all, .cLui 5#5 31#6,
      [], [], [], [(5, 0x1f000)], [], [], 0x0, 0x1002⟩,
    ⟨"C.37", .rv64, Ext.all, .cSrli 1#3 63#6,
      [(9, 0x8000000000000000)], [], [], [(9, 0x1)], [], [], 0x0, 0x1002⟩,
    ⟨"C.41", .rv64, Ext.all, .cSrai 1#3 40#6,
      [(9, 0x8000000000000000)], [], [], [(9, 0xffffffffff800000)], [], [], 0x0, 0x1002⟩,
    ⟨"C.42", .rv32, Ext.all, .cAndi 1#3 48#6,
      [(9, 0x12345678)], [], [], [(9, 0x12345670)], [], [], 0x0, 0x1002⟩,
    ⟨"C.43", .rv32, Ext.all, .cSub 1#3 2#3,
      [(9, 0x0), (10, 0x1)], [], [], [(9, 0xffffffff)], [], [], 0x0, 0x1002⟩] := by decide +kernel

theorem test_vectors_compressed_2 : AllPass [
    ⟨"C.44", .rv32, Ext.all, .cXor 1#3 2#3,
      [(9, 0xff00ff00), (10, 0xff00ff0)], [], [], [(9, 0xf0f0f0f0)], [], [], 0x0, 0x1002⟩,
    ⟨"C.45", .rv32, Ext.all, .cOr 1#3 2#3,
      [(9, 0xff00ff00), (10, 0xff00ff0)], [], [], [(9, 0xfff0fff0)], [], [], 0x0, 0x1002⟩,
    ⟨"C.46", .rv32, Ext.all, .cAnd 1#3 2#3,
      [(9, 0xff00ff00), (10, 0xff00ff0)], [], [], [(9, 0xf000f00)], [], [], 0x0, 0x1002⟩,
    ⟨"C.47", .rv64, Ext.all, .cSubw 1#3 2#3,
      [(9, 0x100000000), (10, 0x1)], [], [], [(9, 0xffffffffffffffff)], [], [], 0x0, 0x1002⟩,
    ⟨"C.48", .rv64, Ext.all, .cAddw 1#3 2#3,
      [(9, 0x7fffffff), (10, 0x1)], [], [], [(9, 0xffffffff80000000)], [], [], 0x0, 0x1002⟩,
    ⟨"C.50", .rv32, Ext.all, .cJ 1024#11,
      [], [], [], [], [], [], 0x0, 0x800⟩,
    ⟨"C.52", .rv32, Ext.all, .cBeqz 1#3 10#8,
      [(9, 0x0)], [], [], [], [], [], 0x0, 0x1014⟩,
    ⟨"C.54", .rv32, Ext.all, .cBnez 1#3 128#8,
      [(9, 0x80000000)], [], [], [], [], [], 0x0, 0xf00⟩,
    ⟨"C.57", .rv64, Ext.all, .cSlli 5#5 32#6,
      [(5, 0xffffffff)], [], [], [(5, 0xffffffff00000000)], [], [], 0x0, 0x1002⟩,
    ⟨"C.66", .rv32, Ext.noPushJump, .cFldsp 5#5 3#6,
      [(2, 0x2000)], [], [(0x2018, 0x3ff0000000000000, 8)], [], [(5, 0x3ff0000000000000)], [], 0x0, 0x1002⟩,
    ⟨"C.61", .rv64, Ext.all, .cLwsp 5#5 63#6,
      [(2, 0x2000)], [], [(0x20fc, 0x80000000, 4)], [(5, 0xffffffff80000000)], [], [], 0x0, 0x1002⟩,
    ⟨"C.65", .rv32, noD, .cFlwsp 5#5 3#6,
      [(2, 0x2000)], [], [(0x200c, 0xbf800000, 4)], [], [(5, 0xbf800000)], [], 0x0, 0x1002⟩,
    ⟨"C.63", .rv64, Ext.all, .cLdsp 5#5 63#6,
      [(2, 0x2000)], [], [(0x21f8, 0x0102030405060708, 8)], [(5, 0x102030405060708)], [], [], 0x0, 0x1002⟩,
    ⟨"C.71", .rv32, Ext.all, .cJr 5#5,
      [(5, 0x2001)], [], [], [], [], [], 0x0, 0x2000⟩,
    ⟨"C.75", .rv32, Ext.all, .cMv 5#5 6#5,
      [(6, 0xdeadbeef)], [], [], [(5, 0xdeadbeef)], [], [], 0x0, 0x1002⟩,
    ⟨"C.73", .rv32, Ext.all, .cJalr 5#5,
      [(5, 0x2000)], [], [], [(1, 0x1002)], [], [], 0x0, 0x2000⟩,
    ⟨"C.77", .rv32, Ext.all, .cAdd 5#5 6#5,
      [(5, 0xffffffff), (6, 0x2)], [], [], [(5, 0x1)], [], [], 0x0, 0x1002⟩,
    ⟨"C.70", .rv32, Ext.noPushJump, .cFsdsp 6#5 2#6,
      [(2, 0x2000)], [(6, 0x4000000000000000)], [(0x2010, 0xaaaaaaaaaaaaaaaa, 8)], [], [], [(0x2010, 0x4000000000000000, 8)], 0x0, 0x1002⟩,
    ⟨"C.67", .rv32, Ext.all, .cSwsp 6#5 63#6,
      [(2, 0x2000), (6, 0xcafebabe)], [], [(0x20fc, 0x00000000, 4)], [], [], [(0x20fc, 0xcafebabe, 4)], 0x0, 0x1002⟩,
    ⟨"C.69", .rv32, noD, .cFswsp 6#5 1#6,
      [(2, 0x2000)], [(6, 0x3f800000)], [(0x2004, 0xaaaaaaaa, 4)], [], [], [(0x2004, 0x3f800000, 4)], 0x0, 0x1002⟩] := by decide +kernel

theorem test_vectors_compressed_3 : AllPass [
    ⟨"C.68", .rv64, Ext.all, .cSdsp 6#5 1#6,
      [(2, 0x2000), (6, 0x102030405060708)], [], [(0x2008, 0x0000000000000000, 8)], [], [], [(0x2008, 0x0102030405060708, 8)], 0x0, 0x1002⟩] := by decide +kernel

theorem test_vectors_code_size_1 : AllPass [
    ⟨"Z.2", .rv64, Ext.all, .cLbu 1#3 2#3 1#2,
      [(10, 0x2000)], [], [(0x2000, 0x8033ff11, 4)], [(9, 0xff)], [], [], 0x0, 0x1002⟩,
    ⟨"Z.4", .rv32, Ext.all, .cLhu 1#3 2#3 1#1,
      [(10, 0x2000)], [], [(0x2000, 0x80332211, 4)], [(9, 0x8033)], [], [], 0x0, 0x1002⟩,
    ⟨"Z.6", .rv64, Ext.all, .cLh 1#3 2#3 0#1,
      [(10, 0x2000)], [], [(0x2000, 0x8000, 2)], [(9, 0xffffffffffff8000)], [], [], 0x0, 0x1002⟩,
    ⟨"Z.10", .rv32, Ext.all, .cSb 2#3 1#3 3#2,
      [(9, 0x12345678), (10, 0x2000)], [], [(0x2000, 0x00000000, 4)], [], [], [(0x2003, 0x78, 1)], 0x0, 0x1002⟩,
    ⟨"Z.12", .rv64, Ext.all, .cSh 2#3 1#3 0#1,
      [(9, 0xffffffffffffabcd), (10, 0x2002)], [], [(0x2000, 0x00000000, 4)], [], [], [(0x2002, 0xabcd, 2)], 0x0, 0x1002⟩,
    ⟨"Z.15", .rv64, Ext.all, .cZextB 7#3,
      [(15, 0x123456789abcdeff)], [], [], [(15, 0xff)], [], [], 0x0, 0x1002⟩,
    ⟨"Z.16", .rv32, Ext.all, .cSextB 1#3,
      [(9, 0x80)], [], [], [(9, 0xffffff80)], [], [], 0x0, 0x1002⟩,
    ⟨"Z.18", .rv32, Ext.all, .cZextH 1#3,
      [(9, 0xffff8000)], [], [], [(9, 0x8000)], [], [], 0x0, 0x1002⟩,
    ⟨"Z.19", .rv32, Ext.all, .cSextH 1#3,
      [(9, 0x8000)], [], [], [(9, 0xffff8000)], [], [], 0x0, 0x1002⟩,
    ⟨"Z.21", .rv64, Ext.all, .cZextW 1#3,
      [(9, 0xffffffff80000000)], [], [], [(9, 0x80000000)], [], [], 0x0, 0x1002⟩,
    ⟨"Z.24", .rv64, Ext.all, .cNot 1#3,
      [(9, 0x0)], [], [], [(9, 0xffffffffffffffff)], [], [], 0x0, 0x1002⟩,
    ⟨"Z.27", .rv64, Ext.all, .cMul 1#3 2#3,
      [(9, 0xffffffffffffffff), (10, 0x3)], [], [], [(9, 0xfffffffffffffffd)], [], [], 0x0, 0x1002⟩,
    ⟨"Z.35", .rv64, Ext.all, .cmPush 5#4 0#2,
      [(1, 0x1111111111111111), (8, 0x8888888888888888), (2, 0x2040)], [], [(0x2030, 0x00000000000000000000000000000000, 16)], [(2, 0x2030)], [], [(0x2030, 0x88888888888888881111111111111111, 16)], 0x0, 0x1002⟩,
    ⟨"Z.38", .rv32, Ext.all, .cmPop 6#4 1#2,
      [(2, 0x2020)], [], [(0x2020, 0x999999998888888811111111eeeeeeeeeeeeeeeeeeeeeeeeeeeeeeeeeeeeeeee, 32)], [(1, 0x11111111), (2, 0x2040), (8, 0x88888888), (9, 0x99999999)], [], [], 0x0, 0x1002⟩,
    ⟨"Z.42", .rv32, Ext.all, .cmPopretz 5#4 0#2,
      [(2, 0x2030), (10, 0x55555555)], [], [(0x2030, 0x8888888800003000eeeeeeeeeeeeeeee, 16)], [(1, 0x3000), (2, 0x2040), (8, 0x88888888), (10, 0x0)], [], [], 0x0, 0x3000⟩,
    ⟨"Z.41", .rv32, Ext.all, .cmPopret 5#4 0#2,
      [(2, 0x2030)], [], [(0x2030, 0x8888888800003001eeeeeeeeeeeeeeee, 16)], [(1, 0x3001), (2, 0x2040), (8, 0x88888888)], [], [], 0x0, 0x3000⟩,
    ⟨"Z.52", .rv64, Ext.all, .cmMvsa01 7#3 0#3,
      [(10, 0xaaaa000000000001), (11, 0xbbbb000000000002)], [], [], [(8, 0xbbbb000000000002), (23, 0xaaaa000000000001)], [], [], 0x0, 0x1002⟩,
    ⟨"Z.56", .rv64, Ext.all, .cmMva01s 6#3 2#3,
      [(22, 0x1616161616161616), (18, 0x1212121212121212)], [], [], [(10, 0x1616161616161616), (11, 0x1212121212121212)], [], [], 0x0, 0x1002⟩] := by decide +kernel

theorem test_vectors_muldiv_1 : AllPass [
    ⟨"M.20", .rv64, Ext.all, .mul 5#5 6#5 7#5,
      [(6, 0x100000000), (7, 0x100000000)], [], [], [(5, 0x0)], [], [], 0x0, 0x1004⟩,
    ⟨"M.21", .rv64, Ext.all, .mulh 5#5 6#5 7#5,
      [(6, 0x8000000000000000), (7, 0x8000000000000000)], [], [], [(5, 0x4000000000000000)], [], [], 0x0, 0x1004⟩,
    ⟨"M.23", .rv64, Ext.all, .mulhsu 5#5 6#5 7#5,
      [(6, 0xffffffffffffffff), (7, 0xffffffffffffffff)], [], [], [(5, 0xffffffffffffffff)], [], [], 0x0, 0x1004⟩,
    ⟨"M.22", .rv64, Ext.all, .mulhu 5#5 6#5 7#5,
      [(6, 0xffffffffffffffff), (7, 0xffffffffffffffff)], [], [], [(5, 0xfffffffffffffffe)], [], [], 0x0, 0x1004⟩,
    ⟨"M.24", .rv64, Ext.all, .div 5#5 6#5 7#5,
      [(6, 0x8000000000000000), (7, 0xffffffffffffffff)], [], [], [(5, 0x8000000000000000)], [], [], 0x0, 0x1004⟩,
    ⟨"M.13", .rv32, Ext.all, .divu 5#5 6#5 7#5,
      [(6, 0x2a), (7, 0x0)], [], [], [(5, 0xffffffff)], [], [], 0x0, 0x1004⟩,
    ⟨"M.25", .rv64, Ext.all, .rem 5#5 6#5 7#5,
      [(6, 0x8000000000000000), (7, 0xffffffffffffffff)], [], [], [(5, 0x0)], [], [], 0x0, 0x1004⟩,
    ⟨"M.15", .rv32, Ext.all, .remu 5#5 6#5 7#5,
      [(6, 0x2a), (7, 0x0)], [], [], [(5, 0x2a)], [], [], 0x0, 0x1004⟩,
    ⟨"M.26", .rv64, Ext.all, .mulw 5#5 6#5 7#5,
      [(6, 0x10000), (7, 0x8000)], [], [], [(5, 0xffffffff80000000)], [], [], 0x0, 0x1004⟩,
    ⟨"M.27", .rv64, Ext.all, .divw 5#5 6#5 7#5,
      [(6, 0x80000000), (7, 0xffffffff)], [], [], [(5, 0xffffffff80000000)], [], [], 0x0, 0x1004⟩,
    ⟨"M.30", .rv64, Ext.all, .divuw 5#5 6#5 7#5,
      [(6, 0xfffffff9), (7, 0x1)], [], [], [(5, 0xfffffffffffffff9)], [], [], 0x0, 0x1004⟩,
    ⟨"M.32", .rv64, Ext.all, .remw 5#5 6#5 7#5,
      [(6, 0xfffffff9), (7, 0x2)], [], [], [(5, 0xffffffffffffffff)], [], [], 0x0, 0x1004⟩,
    ⟨"M.34", .rv64, Ext.all, .remuw 5#5 6#5 7#5,
      [(6, 0xfffffff9), (7, 0x0)], [], [], [(5, 0xfffffffffffffff9)], [], [], 0x0, 0x1004⟩] := by decide +kernel

theorem test_vectors_atomic_1 : AllPass [
    ⟨"A.14", .rv32, Ext.all, .amoswapW 5#5 6#5 7#5 0#1 0#1,
      [(6, 0x2000), (7, 0x11223344)], [], [(0x2000, 0x80000005, 4)], [(5, 0x80000005)], [], [(0x2000, 0x11223344, 4)], 0x0, 0x1004⟩,
    ⟨"A.23", .rv64, Ext.all, .amoaddW 5#5 6#5 7#5 1#1 1#1,
      [(6, 0x2000), (7, 0xffffffff00000001)], [], [(0x2000, 0x80000005, 4)], [(5, 0xffffffff80000005)], [], [(0x2000, 0x80000006, 4)], 0x0, 0x1004⟩,
    ⟨"A.16", .rv32, Ext.all, .amoxorW 5#5 6#5 7#5 0#1 0#1,
      [(6, 0x2000), (7, 0xffffffff)], [], [(0x2000, 0x80000005, 4)], [(5, 0x80000005)], [], [(0x2000, 0x7ffffffa, 4)], 0x0, 0x1004⟩,
    ⟨"A.17", .rv32, Ext.all, .amoandW 5#5 6#5 7#5 0#1 0#1,
      [(6, 0x2000), (7, 0xf)], [], [(0x2000, 0x80000005, 4)], [(5, 0x80000005)], [], [(0x2000, 0x00000005, 4)], 0x0, 0x1004⟩,
    ⟨"A.18", .rv32, Ext.all, .amoorW 5#5 6#5 7#5 0#1 0#1,
      [(6, 0x2000), (7, 0xf0)], [], [(0x2000, 0x80000005, 4)], [(5, 0x80000005)], [], [(0x2000, 0x800000f5, 4)], 0x0, 0x1004⟩,
    ⟨"A.19", .rv32, Ext.all, .amominW 5#5 6#5 7#5 0#1 0#1,
      [(6, 0x2000), (7, 0x1)], [], [(0x2000, 0x80000005, 4)], [(5, 0x80000005)], [], [(0x2000, 0x80000005, 4)], 0x0, 0x1004⟩,
    ⟨"A.20", .rv32, Ext.all, .amomaxW 5#5 6#5 7#5 0#1 0#1,
      [(6, 0x2000), (7, 0x1)], [], [(0x2000, 0x80000005, 4)], [(5, 0x80000005)], [], [(0x2000, 0x00000001, 4)], 0x0, 0x1004⟩,
    ⟨"A.21", .rv32, Ext.all, .amominuW 5#5 6#5 7#5 0#1 0#1,
      [(6, 0x2000), (7, 0x1)], [], [(0x2000, 0x80000005, 4)], [(5, 0x80000005)], [], [(0x2000, 0x00000001, 4)], 0x0, 0x1004⟩,
    ⟨"A.24", .rv64, Ext.all, .amomaxuW 5#5 6#5 7#5 0#1 0#1,
      [(6, 0x2000), (7, 0x1)], [], [(0x2000, 0x80000005, 4)], [(5, 0xffffffff80000005)], [], [(0x2000, 0x80000005, 4)], 0x0, 0x1004⟩,
    ⟨"A.28", .rv64, Ext.all, .amoswapD 5#5 6#5 7#5 0#1 0#1,
      [(6, 0x2000), (7, 0x1122334455667788)], [], [(0x2000, 0x8000000000000005, 8)], [(5, 0x8000000000000005)], [], [(0x2000, 0x1122334455667788, 8)], 0x0, 0x1004⟩,
    ⟨"A.29", .rv64, Ext.all, .amoaddD 5#5 6#5 7#5 0#1 0#1,
      [(6, 0x2000), (7, 0x8000000000000000)], [], [(0x2000, 0x8000000000000005, 8)], [(5, 0x8000000000000005)], [], [(0x2000, 0x0000000000000005, 8)], 0x0, 0x1004⟩,
    ⟨"A.30", .rv64, Ext.all, .amoxorD 5#5 6#5 7#5 0#1 0#1,
      [(6, 0x2000), (7, 0xffffffffffffffff)], [], [(0x2000, 0x8000000000000005, 8)], [(5, 0x8000000000000005)], [], [(0x2000, 0x7ffffffffffffffa, 8)], 0x0, 0x1004⟩,
    ⟨"A.31", .rv64, Ext.all, .amoandD 5#5 6#5 7#5 0#1 0#1,
      [(6, 0x2000), (7, 0xf)], [], [(0x2000, 0x8000000000000005, 8)], [(5, 0x8000000000000005)], [], [(0x2000, 0x0000000000000005, 8)], 0x0, 0x1004⟩,
    ⟨"A.32", .rv64, Ext.all, .amoorD 5#5 6#5 7#5 0#1 0#1,
      [(6, 0x2000), (7, 0xf0)], [], [(0x2000, 0x8000000000000005, 8)], [(5, 0x8000000000000005)], [], [(0x2000, 0x80000000000000f5, 8)], 0x0, 0x1004⟩,
    ⟨"A.33", .rv64, Ext.all, .amominD 5#5 6#5 7#5 0#1 0#1,
      [(6, 0x2000), (7, 0x1)], [], [(0x2000, 0x8000000000000005, 8)], [(5, 0x8000000000000005)], [], [(0x2000, 0x8000000000000005, 8)], 0x0, 0x1004⟩,
    ⟨"A.34", .rv64, Ext.all, .amomaxD 5#5 6#5 7#5 0#1 0#1,
      [(6, 0x2000), (7, 0x1)], [], [(0x2000, 0x8000000000000005, 8)], [(5, 0x8000000000000005)], [], [(0x2000, 0x0000000000000001, 8)], 0x0, 0x1004⟩,
    ⟨"A.35", .rv64, Ext.all, .amominuD 5#5 6#5 7#5 0#1 0#1,
      [(6, 0x2000), (7, 0x1)], [], [(0x2000, 0x8000000000000005, 8)], [(5, 0x8000000000000005)], [], [(0x2000, 0x0000000000000001, 8)], 0x0, 0x1004⟩,
    ⟨"A.36", .rv64, Ext.all, .amomaxuD 5#5 6#5 7#5 0#1 0#1,
      [(6, 0x2000), (7, 0x1)], [], [(0x2000, 0x8000000000000005, 8)], [(5, 0x8000000000000005)], [], [(0x2000, 0x8000000000000005, 8)], 0x0, 0x1004⟩] := by decide +kernel

theorem test_vectors_bitmanip_1 : AllPass [
    ⟨"B.1", .rv64, Ext.all, .addUw 5#5 6#5 7#5,
      [(6, 0xffffffff80000001), (7, 0x10)], [], [], [(5, 0x80000011)], [], [], 0x0, 0x1004⟩,
    ⟨"B.2", .rv32, Ext.all, .sh1add 5#5 6#5 7#5,
      [(6, 0x80000003), (7, 0x10)], [], [], [(5, 0x16)], [], [], 0x0, 0x1004⟩,
    ⟨"B.5", .rv64, Ext.all, .sh1addUw 5#5 6#5 7#5,
      [(6, 0xffffffff80000001), (7, 0x1)], [], [], [(5, 0x100000003)], [], [], 0x0, 0x1004⟩,
    ⟨"B.3", .rv32, Ext.all, .sh2add 5#5 6#5 7#5,
      [(6, 0x5), (7, 0x1000)], [], [], [(5, 0x1014)], [], [], 0x0, 0x1004⟩,
    ⟨"B.6", .rv64, Ext.all, .sh2addUw 5#5 6#5 7#5,
      [(6, 0xffffffff80000001), (7, 0x1)], [], [], [(5, 0x200000005)], [], [], 0x0, 0x1004⟩,
    ⟨"B.4", .rv64, Ext.all, .sh3add 5#5 6#5 7#5,
      [(6, 0x2000000000000001), (7, 0xfffffffffffffff8)], [], [], [(5, 0x0)], [], [], 0x0, 0x1004⟩,
    ⟨"B.7", .rv64, Ext.all, .sh3addUw 5#5 6#5 7#5,
      [(6, 0xffffffff80000001), (7, 0x1)], [], [], [(5, 0x400000009)], [], [], 0x0, 0x1004⟩,
    ⟨"B.8", .rv64, Ext.all, .slliUw 5#5 6#5 4#6,
      [(6, 0xffffffff80000001)], [], [], [(5, 0x800000010)], [], [], 0x0, 0x1004⟩,
    ⟨"B.10", .rv32, Ext.all, .andn 5#5 6#5 7#5,
      [(6, 0xff00ff00), (7, 0xff00ff0)], [], [], [(5, 0xf000f000)], [], [], 0x0, 0x1004⟩,
    ⟨"B.11", .rv32, Ext.all, .orn 5#5 6#5 7#5,
      [(6, 0xff00ff00), (7, 0xff00ff0)], [], [], [(5, 0xff0fff0f)], [], [], 0x0, 0x1004⟩,
    ⟨"B.12", .rv32, Ext.all, .xnor 5#5 6#5 7#5,
      [(6, 0xff00ff00), (7, 0xff00ff0)], [], [], [(5, 0xf0f0f0f)], [], [], 0x0, 0x1004⟩,
    ⟨"B.15", .rv64, Ext.all, .clz 5#5 6#5,
      [(6, 0xffffffff)], [], [], [(5, 0x20)], [], [], 0x0, 0x1004⟩,
    ⟨"B.17", .rv64, Ext.all, .clzw 5#5 6#5,
      [(6, 0xffffffff00000000)], [], [], [(5, 0x20)], [], [], 0x0, 0x1004⟩,
    ⟨"B.20", .rv64, Ext.all, .ctz 5#5 6#5,
      [(6, 0x8000000000000000)], [], [], [(5, 0x3f)], [], [], 0x0, 0x1004⟩,
    ⟨"B.22", .rv64, Ext.all, .ctzw 5#5 6#5,
      [(6, 0xffffffff00000000)], [], [], [(5, 0x20)], [], [], 0x0, 0x1004⟩,
    ⟨"B.25", .rv64, Ext.all, .cpop 5#5 6#5,
      [(6, 0xf0f0f0f0f0f0f0f0)], [], [], [(5, 0x20)], [], [], 0x0, 0x1004⟩,
    ⟨"B.27", .rv64, Ext.all, .cpopw 5#5 6#5,
      [(6, 0xffffffff00000101)], [], [], [(5, 0x2)], [], [], 0x0, 0x1004⟩,
    ⟨"B.28", .rv32, Ext.all, .max 5#5 6#5 7#5,
      [(6, 0x80000000), (7, 0x1)], [], [], [(5, 0x1)], [], [], 0x0, 0x1004⟩,
    ⟨"B.29", .rv32, Ext.all, .maxu 5#5 6#5 7#5,
      [(6, 0x80000000), (7, 0x1)], [], [], [(5, 0x80000000)], [], [], 0x0, 0x1004⟩,
    ⟨"B.32", .rv64, Ext.all, .min 5#5 6#5 7#5,
      [(6, 0xffffffffffffffff), (7, 0x0)], [], [], [(5, 0xffffffffffffffff)], [], [], 0x0, 0x1004⟩] := by decide +kernel

theorem test_vectors_bitmanip_2 : AllPass [
    ⟨"B.31", .rv32, Ext.all, .minu 5#5 6#5 7#5,
      [(6, 0x80000000), (7, 0x1)], [], [], [(5, 0x1)], [], [], 0x0, 0x1004⟩,
    ⟨"B.34", .rv64, Ext.all, .sextB 5#5 6#5,
      [(6, 0x123456789abcde7f)], [], [], [(5, 0x7f)], [], [], 0x0, 0x1004⟩,
    ⟨"B.36", .rv64, Ext.all, .sextH 5#5 6#5,
      [(6, 0x7fff)], [], [], [(5, 0x7fff)], [], [], 0x0, 0x1004⟩,
    ⟨"B.37", .rv32, Ext.all, .zextHRv32 5#5 6#5,
      [(6, 0xffff8000)], [], [], [(5, 0x8000)], [], [], 0x0, 0x1004⟩,
    ⟨"B.38", .rv64, Ext.all, .zextHRv64 5#5 6#5,
      [(6, 0xffffffffffff8000)], [], [], [(5, 0x8000)], [], [], 0x0, 0x1004⟩,
    ⟨"B.42", .rv64, Ext.all, .rol 5#5 6#5 7#5,
      [(6, 0x8000000000000001), (7, 0xffffffffffffffc4)], [], [], [(5, 0x18)], [], [], 0x0, 0x1004⟩,
    ⟨"B.49", .rv64, Ext.all, .rolw 5#5 6#5 7#5,
      [(6, 0xaaaaaaaa80000001), (7, 0x1)], [], [], [(5, 0x3)], [], [], 0x0, 0x1004⟩,
    ⟨"B.44", .rv64, Ext.all, .ror 5#5 6#5 7#5,
      [(6, 0x1), (7, 0x3f)], [], [], [(5, 0x2)], [], [], 0x0, 0x1004⟩,
    ⟨"B.47", .rv64, Ext.all, .rori 5#5 6#5 32#6,
      [(6, 0xffffffff)], [], [], [(5, 0xffffffff00000000)], [], [], 0x0, 0x1004⟩,
    ⟨"B.51", .rv64, Ext.all, .roriw 5#5 6#5 4#5,
      [(6, 0xaaaaaaaa0000000f)], [], [], [(5, 0xfffffffff0000000)], [], [], 0x0, 0x1004⟩,
    ⟨"B.50", .rv64, Ext.all, .rorw 5#5 6#5 7#5,
      [(6, 0xaaaaaaaa00000001), (7, 0x1)], [], [], [(5, 0xffffffff80000000)], [], [], 0x0, 0x1004⟩,
    ⟨"B.54", .rv64, Ext.all, .orcB 5#5 6#5,
      [(6, 0x100000000ff0000)], [], [], [(5, 0xff00000000ff0000)], [], [], 0x0, 0x1004⟩,
    ⟨"B.55", .rv32, Ext.all, .rev8Rv32 5#5 6#5,
      [(6, 0x1020304)], [], [], [(5, 0x4030201)], [], [], 0x0, 0x1004⟩,
    ⟨"B.56", .rv64, Ext.all, .rev8Rv64 5#5 6#5,
      [(6, 0x102030405060708)], [], [], [(5, 0x807060504030201)], [], [], 0x0, 0x1004⟩,
    ⟨"B.62", .rv64, Ext.all, .clmul 5#5 6#5 7#5,
      [(6, 0x8000000000000000), (7, 0x2)], [], [], [(5, 0x0)], [], [], 0x0, 0x1004⟩,
    ⟨"B.63", .rv64, Ext.all, .clmulh 5#5 6#5 7#5,
      [(6, 0x8000000000000000), (7, 0x2)], [], [], [(5, 0x1)], [], [], 0x0, 0x1004⟩,
    ⟨"B.64", .rv64, Ext.all, .clmulr 5#5 6#5 7#5,
      [(6, 0x8000000000000000), (7, 0x2)], [], [], [(5, 0x2)], [], [], 0x0, 0x1004⟩,
    ⟨"B.68", .rv64, Ext.all, .bclr 5#5 6#5 7#5,
      [(6, 0xffffffffffffffff), (7, 0x25)], [], [], [(5, 0xffffffdfffffffff)], [], [], 0x0, 0x1004⟩,
    ⟨"B.70", .rv64, Ext.all, .bclri 5#5 6#5 63#6,
      [(6, 0xffffffffffffffff)], [], [], [(5, 0x7fffffffffffffff)], [], [], 0x0, 0x1004⟩,
    ⟨"B.74", .rv64, Ext.all, .bext 5#5 6#5 7#5,
      [(6, 0x80000000), (7, 0x3f)], [], [], [(5, 0x0)], [], [], 0x0, 0x1004⟩] := by decide +kernel

theorem test_vectors_bitmanip_3 : AllPass [
    ⟨"B.75", .rv32, Ext.all, .bexti 5#5 6#5 4#6,
      [(6, 0x10)], [], [], [(5, 0x1)], [], [], 0x0, 0x1004⟩,
    ⟨"B.77", .rv32, Ext.all, .binv 5#5 6#5 7#5,
      [(6, 0xffff), (7, 0xf)], [], [], [(5, 0x7fff)], [], [], 0x0, 0x1004⟩,
    ⟨"B.80", .rv64, Ext.all, .binvi 5#5 6#5 32#6,
      [(6, 0x0)], [], [], [(5, 0x100000000)], [], [], 0x0, 0x1004⟩,
    ⟨"B.82", .rv64, Ext.all, .bset 5#5 6#5 7#5,
      [(6, 0x0), (7, 0xffffffffffffffff)], [], [], [(5, 0x8000000000000000)], [], [], 0x0, 0x1004⟩,
    ⟨"B.84", .rv64, Ext.all, .bseti 5#5 6#5 40#6,
      [(6, 0x0)], [], [], [(5, 0x10000000000)], [], [], 0x0, 0x1004⟩] := by decide +kernel

/-! Traps, returns, CSRs, atomics and table jumps, from the vectors of 96_vectors_integer.md to 98. -/

/-- A hart under trap delivery `machine` with MTVEC 0x8000 and MIE set. -/
def trapHart (xlen : Xlen) (ext : Ext) : State :=
  { hart xlen ext with mtvec := 0x8000#64, mstatus := { Mstatus.reset with mie := true, fs := 1 } }

/-- Whether an outcome is the entry of the handler at 0x8000 with a cause and a trap value, from pc 0x1000. -/
def entered (r : Result) (cause tval : Word) (mpp : Priv) : Bool :=
  after r (fun t => t.mepc == 0x1000#64 && t.mcause == cause && t.mtval == tval && t.pc == 0x8000#64 && t.priv == .M
    && t.mstatus.mpp == mpp && t.mstatus.mpie && !t.mstatus.mie)

/-- 60_exceptions.md R614 and vectors T.13 to T.25, SYS.21, SYS.24, SYS.46, SYS.48. -/
theorem test_traps_enter_the_handler :
    [ entered (exec .ecall (trapHart .rv32 Ext.all)) 11#64 0#64 .M,
      entered (exec .ecall { trapHart .rv32 Ext.all with priv := .S }) 9#64 0#64 .S,
      entered (exec .ecall { trapHart .rv32 Ext.all with priv := .U }) 8#64 0#64 .U,
      entered (exec .ebreak (trapHart .rv32 Ext.all)) 3#64 0x1000#64 .M,
      entered (exec .cEbreak (trapHart .rv32 Ext.all)) 3#64 0x1000#64 .M,
      entered (exec (.sw 6#5 7#5 1#12) (withX (trapHart .rv32 Ext.all) [(6, 0x2000)])) 6#64 0x2001#64 .M,
      entered (exec (.lw 5#5 6#5 2#12) (withX (trapHart .rv32 Ext.all) [(6, 0x5000)])) 4#64 0x5002#64 .M,
      entered (exec (.lw 5#5 6#5 0#12)
        { withX (trapHart .rv32 Ext.all) [(6, 0x5000)] with cfg := { (trapHart .rv32 Ext.all).cfg with memMap := [] } })
        5#64 0x5000#64 .M,
      entered (exec (.jal 1#5 3#20) (trapHart .rv32 { Ext.all with c := false })) 0#64 0x1006#64 .M,
      entered (exec .mret { trapHart .rv32 Ext.all with priv := .U }) 2#64 0x30200073#64 .U,
      entered (exec (.csrrw 5#5 6#5 0xf11#12) (trapHart .rv32 Ext.all)) 2#64 0xf11312f3#64 .M,
      entered (exec (.csrrs 5#5 0#5 0x340#12) { trapHart .rv32 Ext.all with priv := .S }) 2#64 0x340022f3#64 .S,
      entered (exec (.faddS 5#5 6#5 7#5 0#3) { trapHart .rv32 Ext.all with mstatus := { Mstatus.reset with mie := true } })
        2#64 0x007302d3#64 .M,
      entered (exec .wfi { trapHart .rv32 Ext.all with priv := .S, mstatus := { Mstatus.reset with mie := true, tw := true } })
        2#64 0x10500073#64 .S,
      entered (exec (.fcvtQH 5#5 6#5 0#3) (trapHart .rv64 Ext.all)) 2#64 0x462302d3#64 .M ].all id = true := by
  decide +kernel

/-- Whether an outcome is the trap to the environment with a cause and a trap value, from pc 0x1000, on a state with a
property. -/
def trapped (r : Result) (cause : Exc) (tval : Word) (p : State → Bool) : Bool :=
  match r with
  | .fault (.trap c epc v u) => c == cause && epc == 0x1000#64 && v == tval && p u
  | _ => false

/-- A hart under trap delivery `environment` with the eight bytes at 0x2000 mapped. -/
def eightHart : State :=
  let s := hart .rv32 Ext.all
  { s with cfg := { s.cfg with trapDelivery := .environment, memMap := [⟨0x2000, 8, true, true, true⟩] } }

/-- 60_exceptions.md R613: under trap delivery `environment` the run ends with the cause, the pc and the trap value; the accesses
before the one that trapped are kept: vectors T.9, Z.46, Z.47. -/
theorem test_traps_to_the_environment :
    trapped (exec .ecall eightHart) .ecallM 0#64 (fun u => u == eightHart) = true
      ∧ trapped (exec (.cmPush 6#4 0#2) (withX eightHart [(1, 0x11111111), (2, 0x2008), (8, 0x88888888), (9, 0x99999999)]))
          .storeAccessFault 0x1ffc#64
          (fun u => u.getX 2#5 == 0x2008#64 && u.mem == (withMem eightHart [(0x2000, 0x9999999988888888, 8)]).mem) = true
      ∧ trapped (exec (.cmPop 6#4 0#2) (withX (withMem eightHart [(0x2000, 0x9999999988888888, 8)]) [(2, 0x1ff8)]))
          .loadAccessFault 0x1ffc#64
          (fun u => u.getX 2#5 == 0x1ff8#64 && u.getX 8#5 == 0x88888888#64 && u.getX 9#5 == 0x99999999#64 && u.getX 1#5 == 0#64)
          = true := by
  decide +kernel

/-- 40_base_compute_system.md R183, vectors SYS.45, SYS.47, SYS.49: a wfi retires, or stays at its pc. -/
theorem test_wfi :
    ∃ t, exec .wfi { hart .rv32 Ext.all with priv := .U } = .next t ∧ (t.pc = 0x1004#64 ∨ t.pc = 0x1000#64) := by
  refine ⟨_, rfl, ?_⟩
  split
  · exact .inl rfl
  · exact .inr rfl

/-- 60_exceptions.md R628 (b): the forms of HALT on one state, and a predicate of the launcher's own. -/
theorem test_halt_forms :
    (let s := { withMem (withX (hart .rv32 Ext.all) [(5, 0xf7)]) [(0x2000, 0x11223344, 4)] with stale := [0x2003], mscratch := 6#64 }
     [ (Halt.never, false), (.pcEquals 0x1000#64, true), (.pcEquals 0x1004#64, false), (.modeIs 3#2, true), (.modeIs 0#2, false),
       (.xMatches 5#5 0xf0#64 0xff#64, true), (.xMatches 5#5 0xff#64 0xff#64, false), (.fMatches 5#5 1#64 0#64, true),
       (.csrMatches 0x340#12 2#64 2#64, true), (.csrMatches 0x340#12 1#64 1#64, false), (.csrMatches 0x7c0#12 0#64 0#64, false),
       (.wordEquals 0x2000 0x11223344#32, true), (.wordEquals 0x2001 0x11223344#32, false), (.hasValue 0x2000 4, true),
       (.hasValue 0x2001 4, false), (.stored 0x2000 4, true), (.stored 0x2000 3, false), (.not .never, true),
       (.both (.not .never) .never, false), (.either (.not .never) .never, true) ].all (fun p => s.haltOn p.1 == p.2)) = true
      ∧ ∀ (n : Nat) (s : State), s.haltOn (.predicate n) = launcherHalt n s := by
  refine ⟨by decide +kernel, fun _ _ => rfl⟩

/-- 40_base_compute_system.md R181, R182: MPIE to MIE, MPP to the mode and then U, SPP likewise. -/
theorem test_returns :
    after (exec .mret { hart .rv64 Ext.all with mepc := 0x1234#64, mstatus := { Mstatus.reset with mpie := true, mpp := .S, mprv := true } })
        (fun t => t.pc == 0x1234#64 && t.priv == .S && t.mstatus.mie && t.mstatus.mpie && t.mstatus.mpp == .U && !t.mstatus.mprv)
      ∧ after (exec .sret { hart .rv64 Ext.all with sepc := 0x1234#64, priv := .S, mstatus := { Mstatus.reset with spp := false, sie := true } })
        (fun t => t.pc == 0x1234#64 && t.priv == .U && !t.mstatus.sie && t.mstatus.spie && !t.mstatus.spp) := by
  decide +kernel

/-- Vectors SYS.5, SYS.9 to SYS.16, SYS.22, SYS.29, SYS.30, Z.68. -/
theorem test_csr_instructions :
    [ after (exec (.csrrw 5#5 6#5 0x340#12) { withX (hart .rv32 Ext.all) [(6, 0x12345678)] with mscratch := 0xaaaaaaaa#64 })
        (fun t => t.getX 5 == 0xaaaaaaaa#64 && t.mscratch == 0x12345678#64),
      after (exec (.csrrs 5#5 6#5 0x340#12) { withX (hart .rv32 Ext.all) [(6, 0x0f)] with mscratch := 0xf0#64 })
        (fun t => t.getX 5 == 0xf0#64 && t.mscratch == 0xff#64),
      after (exec (.csrrc 5#5 6#5 0x340#12) { withX (hart .rv32 Ext.all) [(6, 0xff)] with mscratch := 0xff0#64 })
        (fun t => t.getX 5 == 0xff0#64 && t.mscratch == 0xf00#64),
      after (exec (.csrrwi 5#5 0x340#12 31#5) { hart .rv32 Ext.all with mscratch := 7#64 })
        (fun t => t.getX 5 == 7#64 && t.mscratch == 0x1f#64),
      after (exec (.csrrsi 5#5 0x340#12 8#5) { hart .rv32 Ext.all with mscratch := 7#64 }) (fun t => t.mscratch == 0xf#64),
      after (exec (.csrrci 5#5 0x340#12 5#5) { hart .rv32 Ext.all with mscratch := 7#64 }) (fun t => t.mscratch == 2#64),
      after (exec (.csrrw 5#5 6#5 0x341#12) (withX (hart .rv32 Ext.all) [(6, 0x1003)])) (fun t => t.mepc == 0x1002#64),
      after (exec (.csrrw 5#5 6#5 0x341#12) (withX (hart .rv32 { Ext.all with c := false }) [(6, 0x1003)]))
        (fun t => t.mepc == 0x1000#64),
      after (exec (.csrrwi 5#5 2#12 3#5) { hart .rv32 Ext.all with fflags := 0x1f#5 })
        (fun t => t.getX 5 == 0#64 && t.frm == 3#3 && t.fflags == 0x1f#5 && t.mstatus.fs == 3#2),
      after (exec (.csrrw 5#5 6#5 3#12) (withX (hart .rv32 Ext.all) [(6, 0xffffffff)]))
        (fun t => t.frm == 7#3 && t.fflags == 0x1f#5),
      after (exec (.csrrw 5#5 6#5 0x017#12) { withX (hart .rv32 Ext.all) [(6, 0x3040)] with jvt := 0x3000#64 })
        (fun t => t.getX 5 == 0x3000#64 && t.jvt == 0x3040#64),
      after (exec (.csrrs 5#5 6#5 0x300#12) (withX (hart .rv32 Ext.all) [(6, 0x1808)]))
        (fun t => t.mstatus.mie && t.mstatus.mpp == .M) ].all id = true
      ∧ exec (.csrrs 5#5 0#5 0xc00#12) (hart .rv32 Ext.all) = .refused (.unmodelledCsr 0xc00#12) := by
  refine ⟨by decide +kernel, by rfl⟩

/-- 43_a_atomic.md R254, R255, R265, R266: a pair succeeds; a store-conditional without its reservation fails. -/
theorem test_load_reserved_store_conditional :
    after (exec (.lrW 5#5 6#5 1#1 0#1) (withMem (withX (hart .rv64 Ext.all) [(6, 0x2000)]) [(0x2000, 0x80000001, 4)]))
        (fun t => t.getX 5 == 0xffffffff80000001#64 && t.reservation == some ⟨0x2000#64, 4⟩)
      ∧ after (exec (.scD 5#5 6#5 7#5 0#1 1#1)
          { withX (hart .rv64 Ext.all) [(6, 0x2000), (7, 0x1122334455667788)] with reservation := some ⟨0x2000#64, 8⟩ })
        (fun t => t.getX 5 == 0#64 && t.reservation == none && Memory.get? t.mem 0x2007 == some 0x11#8
          && Memory.get? t.mem 0x2000 == some 0x88#8)
      ∧ after (exec (.scW 5#5 6#5 7#5 0#1 0#1) { withX (hart .rv64 Ext.all) [(6, 0x2000)] with reservation := some ⟨0x2000#64, 8⟩ })
        (fun t => t.getX 5 == 1#64 && t.reservation == none && t.mem == []) := by
  decide +kernel

/-- Vectors Z.58, Z.59, Z.61. -/
theorem test_table_jumps :
    after (exec (.cmJt 31#8) { withMem (hart .rv32 Ext.all) [(0x307c, 0x4001, 4)] with jvt := 0x3000#64 })
        (fun t => t.pc == 0x4000#64 && t.getX 1 == 0#64)
      ∧ after (exec (.cmJalt 32#8) { withMem (hart .rv32 Ext.all) [(0x3080, 0x4000, 4)] with jvt := 0x3000#64 })
        (fun t => t.pc == 0x4000#64 && t.getX 1 == 0x1002#64)
      ∧ after (exec (.cmJt 1#8) { withMem (hart .rv64 Ext.all) [(0x3008, 0x100004000, 8)] with jvt := 0x3000#64 })
        (fun t => t.pc == 0x100004000#64) := by
  decide +kernel

/-- 60_exceptions.md R603 (a), vector T.1; 20_memory.md R79: a step, not only a meaning. -/
theorem test_step_stops :
    entered (step ({ trapHart .rv64 Ext.all with priv := .U }.withFetchWord 32 0xffffffff)) 2#64 0xffffffff#64 .U = true
      ∧ step { hart .rv64 Ext.all with stale := [0x1001] } = .fault (.staleFetch 0x1001)
      ∧ step (hart .rv64 Ext.all) = .fault (.readOfUnspecified 0x1000)
      ∧ (let s := State.resetWith { Config.default with halt := .pcEquals 0x1000#64 }
         step s = .fault (.halted s)) := by
  refine ⟨by decide +kernel, by rfl, by rfl, by rfl⟩

/-- The host's interface: a word is decoded and run as the first instruction after reset. -/
theorem test_first_instruction_after_reset :
    decodeTableWord 32 0x00110293 = some (.addi 5#5 2#5 1#12)
      ∧ after (step (State.reset.withFetchWord 32 0x00110293)) (fun t => t.getX 5 == 1#64 && t.pc == 0x1004#64)
      ∧ after (step (State.reset.withFetchWord 16 0x0285)) (fun t => t.getX 5 == 1#64 && t.pc == 0x1002#64) := by
  decide +kernel

/-! Witnesses: for each statement with hypotheses a state and operands that meet them, a clause at a time, at the ends of a
range where there is one. -/

/-- An outcome that passes a test is a state that passes it. -/
theorem exists_of_after {r : Result} {p : State → Bool} (h : after r p = true) : ∃ t, r = .next t ∧ p t = true := by
  cases r with
  | next t => exact ⟨t, rfl, h⟩
  | fault _ => exact absurd h Bool.false_ne_true
  | refused _ => exact absurd h Bool.false_ne_true

/-- addi x5, x2, 1 as the first instruction after reset. -/
noncomputable def addiHart : State := State.reset.withFetchWord 32 0x00110293

/-- sw x7, 0(x6) at pc, with a reservation held and one byte in the fetch-coherence set. -/
noncomputable def storeHart : State :=
  let s := withX (withMem State.reset [(0x3000, 0x55, 1)]) [(6, 0x2000), (7, 0x11223344)]
  { s with stale := [0x3000], reservation := some ⟨0x4000#64, 8⟩ }.withFetchWord 32 0x00732023

theorem witness_StepRunsTheDecodedInstruction :
    ∃ (s : State) (code : Code) (i : Instr), NotHalting s ∧ s.fetch = .ok code
      ∧ decode s.cfg.xlen s.cfg.ext code = some i :=
  ⟨addiHart, .full 0x00110293#32, .addi 5#5 2#5 1#12, by decide +kernel, by rfl, by decide +kernel⟩

theorem witness_StepStopsBeforeAnInstruction :
    (∃ (s : State) (code : Code), NotHalting s ∧ s.fetch = .ok code
        ∧ decode s.cfg.xlen s.cfg.ext code = none)
      ∧ (∃ s : State, s.cfg.trapDelivery = .machine ∧ s.haltHolds = true)
      ∧ (∃ s : State, NotHalting s ∧ ¬Mapped s .execute s.pc 2) :=
  ⟨⟨State.reset.withFetchWord 32 0xffffffff, .full 0xffffffff#32, by decide +kernel, by rfl, by decide +kernel⟩,
   ⟨State.resetWith { Config.default with halt := .pcEquals 0x1000#64 }, by decide +kernel⟩,
   ⟨State.resetWith { Config.default with memMap := [⟨0x1000, 1, true, true, true⟩] }, by decide +kernel⟩⟩

/-- The word 0x00110293 at 0x1000 on a hart whose memory ends after a number of bytes, with a fetch-coherence set. -/
def fetchHart (len : Nat) (stale : List Nat) : State :=
  let s := State.resetWith { Config.default with memMap := [⟨0x1000, len, true, true, true⟩] }
  { withMem s [(0x1000, 0x00110293, 4)] with stale := stale }

theorem witness_FetchReadsOneOrTwoParcels :
    (∃ (s : State) (lo : Nat), Mapped s .execute s.pc 2 ∧ (∀ k < 2, byteAddr s s.pc k ∉ s.stale) ∧ Holds s s.pc 2 lo ∧ lo % 4 ≠ 3)
      ∧ (∃ (s : State) (lo hi : Nat), Mapped s .execute s.pc 2 ∧ (∀ k < 2, byteAddr s s.pc k ∉ s.stale) ∧ Holds s s.pc 2 lo
          ∧ lo % 4 = 3 ∧ Mapped s .execute (effAddr s.xlen s.pc 2#64) 2
          ∧ (∀ k < 2, byteAddr s (effAddr s.xlen s.pc 2#64) k ∉ s.stale) ∧ Holds s (effAddr s.xlen s.pc 2#64) 2 hi)
      ∧ (∃ (s : State) (lo : Nat), Mapped s .execute s.pc 2 ∧ (∀ k < 2, byteAddr s s.pc k ∉ s.stale) ∧ Holds s s.pc 2 lo ∧ lo % 4 = 3
          ∧ ¬Mapped s .execute (effAddr s.xlen s.pc 2#64) 2)
      ∧ (∃ (s : State) (lo : Nat), Mapped s .execute s.pc 2 ∧ (∀ k < 2, byteAddr s s.pc k ∉ s.stale) ∧ Holds s s.pc 2 lo ∧ lo % 4 = 3
          ∧ Mapped s .execute (effAddr s.xlen s.pc 2#64) 2
          ∧ FirstByte s (effAddr s.xlen s.pc 2#64) 2 (Stale s) 0)
      ∧ FirstByte (fetchHart 4 [0x1003]) (effAddr .rv64 0x1000#64 2#64) 2 (Stale (fetchHart 4 [0x1003])) 1 :=
  ⟨⟨withMem (fetchHart 2 []) [(0x1000, 0x0285, 2)], 0x0285, by decide +kernel⟩,
   ⟨fetchHart 4 [], 0x0293, 0x0011, by decide +kernel⟩,
   ⟨fetchHart 3 [], 0x0293, by decide +kernel⟩,
   ⟨fetchHart 4 [0x1002], 0x0293, by decide +kernel⟩,
   by decide +kernel⟩

/-- A hart with one entry of the jump table at 0x37f8, number 255, with a fetch-coherence set. -/
def tableHart (stale : List Nat) : State :=
  { withMem (hart .rv64 Ext.all) [(0x37f8, 0x4001, 8)] with jvt := 0x3000#64, stale := stale }

/-- Either byte of the first parcel, either byte of the second, either end of a table entry. -/
theorem witness_StoredBytesAreStaleUntilFenceI_reads :
    (NotHalting (fetchHart 4 [0x1000, 0x1001]) ∧ Mapped (fetchHart 4 []) .execute 0x1000#64 2
        ∧ FirstByte (fetchHart 4 [0x1000, 0x1001]) 0x1000#64 2 (Stale (fetchHart 4 [0x1000, 0x1001])) 0
        ∧ FirstByte (fetchHart 4 [0x1001]) 0x1000#64 2 (Stale (fetchHart 4 [0x1001])) 1)
      ∧ ([(0, [0x1002, 0x1003]), (1, [0x1003])] : List (Nat × List Nat)).all (fun p =>
          let s := fetchHart 4 p.2
          let next := effAddr s.xlen s.pc 2#64
          decide (NotHalting s ∧ (∀ j < 2, byteAddr s s.pc j ∉ s.stale) ∧ Holds s s.pc 2 0x0293 ∧ 0x0293 % 4 = 3
            ∧ Mapped s .execute next 2 ∧ FirstByte s next 2 (Stale s) p.1)) = true
      ∧ ([(0, [0x37f8, 0x37ff]), (7, [0x37ff])] : List (Nat × List Nat)).all (fun p =>
          let s := tableHart p.2
          let entry := wrap s (s.jvt.toNat / 64 * 64 + (255#8).toNat * 8)
          decide (s.cfg.xlen.bytes = 8 ∧ s.jvt.toNat % 64 = 0 ∧ Mapped s .execute entry 8 ∧ FirstByte s entry 8 (Stale s) p.1))
        = true := by
  decide +kernel

theorem witness_StoredBytesAreStaleUntilFenceI :
    ∃ (rs1 rs2 : RegIdx) (imm : BitVec 12) (s t : State),
      AlignedOrEmulated s (immAddr s rs1 imm) 4 ∧ Mapped s .store (immAddr s rs1 imm) 4 ∧ exec (.sw rs1 rs2 imm) s = .next t
        ∧ NotHalting t ∧ t.pc = immAddr s rs1 imm
        ∧ Mapped t .execute (immAddr s rs1 imm) 2 :=
  let s := withX State.reset [(6, 0x1000)]
  have h : ∃ t, exec (.sw 6#5 7#5 4#12) s = .next t ∧ (decide (NotHalting t ∧ t.pc = immAddr s 6#5 4#12 ∧ Mapped t .execute (immAddr s 6#5 4#12) 2)) = true :=
    exists_of_after (by decide +kernel)
  let ⟨t, ht, hp⟩ := h
  ⟨6#5, 7#5, 4#12, s, t, by decide +kernel, by decide +kernel, ht, of_decide_eq_true hp⟩

theorem witness_DecodeInvertsEncode :
    (Instr.slli 31#5 31#5 63#6).wf .rv64 Ext.all = true ∧ (Instr.slli 0#5 0#5 31#6).wf .rv32 Ext.all = true
      ∧ (Instr.cmJalt 255#8).wf .rv32 Ext.all = true ∧ (Instr.cFld 7#3 0#3 31#5).wf .rv64 Ext.noPushJump = true := by
  decide +kernel

theorem witness_EncodeInvertsDecode :
    ∃ (xlen : Xlen) (ext : Ext) (code : Code) (i : Instr), decode xlen ext code = some i :=
  ⟨.rv32, Ext.all, .half 0b101_000_11111111_10#16, .cmJalt 255#8, by decide +kernel⟩

/-- Parameters of an RV32 machine with no unit, two regions, and RESET_PC the last instruction address. -/
def bareConfig : Config :=
  { Config.default with
    xlen := .rv32
    ext := ⟨false, false, false, false, false, false, false, false, false, false⟩
    memMap := [⟨0, 4, true, true, true⟩, ⟨4, 2 ^ 32 - 4, true, false, false⟩]
    resetPc := 0xfffffffc#64 }

theorem witness_ResetMeetsTheInvariant : bareConfig.valid = true := by decide +kernel

/-- One state meets every premise of the four statements of what a step keeps, and its step, a store, is a next state. -/
theorem witness_StepKeeps :
    ∃ s t : State, s.memInv ∧ s.staleInv ∧ s.widthInv ∧ s.alignInv ∧ s.vectorInv ∧ s.reservationInv ∧ step s = .next t := by
  obtain ⟨t, ht, -⟩ := exists_of_after (r := step storeHart) (p := fun t => t.stale == [0x2000, 0x2001, 0x2002, 0x2003, 0x3000])
    (by decide +kernel)
  refine ⟨storeHart, t, ⟨by decide +kernel, by decide +kernel⟩, ⟨by decide +kernel, by decide +kernel⟩, ?_,
    ⟨by decide +kernel, by decide +kernel, by decide +kernel⟩, ⟨by decide +kernel, by decide +kernel⟩, ?_, ht⟩
  · exact ⟨by unfold fitsX; decide +kernel, by decide +kernel, by decide +kernel, by unfold fitsX; decide +kernel⟩
  · intro r hr
    have h : r = ⟨0x4000#64, 8⟩ := by
      have h : (some ⟨0x4000#64, 8⟩ : Option Reservation) = some r := hr
      exact (Option.some.inj h).symm
    subst h
    exact ⟨.inr rfl, by decide +kernel, by unfold fitsX; decide +kernel⟩

theorem witness_ModeChangesOnlyByTrapOrReturn :
    (∃ s t : State, step s = .next t ∧ t.priv ≠ s.priv ∧ s.priv = .U)
      ∧ (∃ s t : State, step s = .next t ∧ t.priv ≠ s.priv ∧ s.priv = .M)
      ∧ (∃ s t : State, step s = .next t ∧ t.priv ≠ s.priv ∧ s.priv = .S) := by
  refine ⟨?_, ?_, ?_⟩
  · obtain ⟨t, ht, h⟩ := exists_of_after (r := step ({ State.reset with priv := .U }.withFetchWord 32 0x00000073))
      (p := fun t => t.priv == .M) (by decide +kernel)
    exact ⟨_, t, ht, by rw [eq_of_beq h]; decide +kernel, by rfl⟩
  · obtain ⟨t, ht, h⟩ := exists_of_after (r := step (State.reset.withFetchWord 32 0x30200073))
      (p := fun t => t.priv == .U) (by decide +kernel)
    exact ⟨_, t, ht, by rw [eq_of_beq h]; decide +kernel, by rfl⟩
  · obtain ⟨t, ht, h⟩ := exists_of_after (r := step ({ State.reset with priv := .S }.withFetchWord 32 0x10200073))
      (p := fun t => t.priv == .U) (by decide +kernel)
    exact ⟨_, t, ht, by rw [eq_of_beq h]; decide +kernel, by rfl⟩

theorem witness_UserModeCannotTouchHigherModes :
    (∃ s t : State, s.priv = .U ∧ step s = .next t ∧ t.priv = .U) ∧ (∃ s t : State, s.priv = .U ∧ step s = .next t ∧ t.priv = .M) := by
  refine ⟨?_, ?_⟩
  · obtain ⟨t, ht, h⟩ := exists_of_after (r := step ({ State.reset with priv := .U }.withFetchWord 32 0x00110293))
      (p := fun t => t.priv == .U) (by decide +kernel)
    exact ⟨_, t, by rfl, ht, eq_of_beq h⟩
  · obtain ⟨t, ht, h⟩ := exists_of_after (r := step ({ State.reset with priv := .U }.withFetchWord 32 0x00000073))
      (p := fun t => t.priv == .M) (by decide +kernel)
    exact ⟨_, t, by rfl, ht, eq_of_beq h⟩

/-- The shift amounts of ImmediateInstructionsComplete, BitmanipArithmeticCompletes, BitmanipBitInstructionsComplete and
CompressedArithmeticCompletes at the ends of their ranges. -/
theorem witness_shift_amounts :
    (0#6).toNat < (hart .rv32 Ext.all).cfg.xlen.bits ∧ (31#6).toNat < (hart .rv32 Ext.all).cfg.xlen.bits
      ∧ (0#6).toNat < (hart .rv64 Ext.all).cfg.xlen.bits ∧ (63#6).toNat < (hart .rv64 Ext.all).cfg.xlen.bits := by
  decide +kernel

/-- A hart that emulates misaligned accesses. -/
def emulating (s : State) : State := { s with cfg := { s.cfg with misaligned := .emulate } }

/-- The hart of the memory witnesses: eight bytes at 0x2000 and eight around the end of the address space, x2 and x8 at
0x2000, x9 eight bytes below the end, reserved and compressed offsets from there. -/
def memHart : State :=
  withMem (withX (hart .rv64 Ext.noPushJump) [(2, 0x2000), (8, 0x2000), (9, 0xfffffffffffffffc)])
    [(0x2000, 0x8877665544332211, 8), (0, 0x44332211, 4), (0xfffffffffffffffc, 0x88776655, 4)]

/-- All the premises of a load of w bytes. -/
abbrev Readable (s : State) (addr : Word) (w v : Nat) : Prop :=
  AlignedOrEmulated s addr w ∧ Mapped s .load addr w ∧ Holds s addr w v

/-- All the premises of a store of w bytes. -/
abbrev Writable (s : State) (addr : Word) (w : Nat) : Prop := AlignedOrEmulated s addr w ∧ Mapped s .store addr w

theorem witness_LoadsComplete :
    ([(immAddr memHart 8#5 0#12, 1, 0x11), (immAddr memHart 8#5 0#12, 2, 0x2211), (immAddr memHart 8#5 4#12, 4, 0x88776655),
        (immAddr memHart 8#5 0#12, 8, 0x8877665544332211), (offAddr memHart (creg 0#3) (1#5 ++ 0#2), 4, 0x88776655),
        (offAddr memHart (creg 0#3) (0#5 ++ 0#3), 8, 0x8877665544332211), (offAddr memHart 2#5 (1#6 ++ 0#2), 4, 0x88776655),
        (offAddr memHart 2#5 (0#6 ++ 0#3), 8, 0x8877665544332211), (offAddr memHart (creg 0#3) 3#2, 1, 0x44),
        (offAddr memHart (creg 0#3) (1#1 ++ 0#1), 2, 0x4433)] : List (Word × Nat × Nat)).all
      (fun p => decide (Readable memHart p.1 p.2.1 p.2.2)) = true
      ∧ Readable (emulating memHart) (immAddr memHart 9#5 0#12) 8 0x4433221188776655 := by
  decide +kernel

theorem witness_StoresComplete :
    ([(immAddr memHart 8#5 0x7ff#12, 1), (immAddr memHart 8#5 0x800#12, 2), (immAddr memHart 8#5 0xffc#12, 4),
        (immAddr memHart 8#5 8#12, 8), (offAddr memHart (creg 0#3) (31#5 ++ 0#2), 4), (offAddr memHart (creg 0#3) (31#5 ++ 0#3), 8),
        (offAddr memHart 2#5 (63#6 ++ 0#2), 4), (offAddr memHart 2#5 (63#6 ++ 0#3), 8), (offAddr memHart (creg 0#3) 3#2, 1),
        (offAddr memHart (creg 0#3) (1#1 ++ 0#1), 2)] : List (Word × Nat)).all (fun p => decide (Writable memHart p.1 p.2)) = true
      ∧ Writable (emulating memHart) (immAddr memHart 9#5 0#12) 8 := by
  decide +kernel

/-- memHart with one mapped byte only, at 0x2000. -/
def smallHart (mode : MisalignedMode) : State :=
  { memHart with cfg := { memHart.cfg with misaligned := mode, memMap := [⟨0x2000, 1, true, true, true⟩] } }

theorem witness_UnreachableAccessesTrap :
    FpOn (smallHart .trap) ∧ ¬AlignedOrEmulated (smallHart .trap) (immAddr (smallHart .trap) 8#5 1#12) 2
      ∧ AlignedOrEmulated (smallHart .trap) (immAddr (smallHart .trap) 8#5 0#12) 2
      ∧ ¬Mapped (smallHart .trap) .load (immAddr (smallHart .trap) 8#5 0#12) 2
      ∧ ¬Mapped (smallHart .trap) .store (immAddr (smallHart .trap) 8#5 0#12) 2
      ∧ ¬AlignedOrEmulated (smallHart .trap) (immAddr (smallHart .trap) 8#5 4#12) 8
      ∧ AlignedOrEmulated (smallHart .emulate) (immAddr (smallHart .emulate) 8#5 1#12) 2
      ∧ ¬Mapped (smallHart .emulate) .load (immAddr (smallHart .emulate) 8#5 1#12) 1
      ∧ ((smallHart .emulate).getX 9#5).toNat % 8 ≠ 0 ∧ ((smallHart .trap).getX 8#5).toNat % 8 = 0
      ∧ ¬Mapped (smallHart .trap) .load ((smallHart .trap).getX 8#5) 4
      ∧ ¬Mapped (smallHart .trap) .atomic ((smallHart .trap).getX 8#5) 4 := by
  decide +kernel

/-- A hart without C, so that an instruction address is a multiple of 4. -/
def wideHart : State := withX (hart .rv32 { Ext.all with c := false, zcb := false, zcmp := false, zcmt := false }) [(6, 0x80000003), (7, 2)]

theorem witness_JumpsComplete :
    (wrap wideHart (wideHart.pc.toNat + (2#20).toInt * 2)).toNat % wideHart.cfg.ext.ialignBytes = 0
      ∧ (wrap wideHart ((uval wideHart 6#5 + (1#12).toInt) / 2 * 2)).toNat % wideHart.cfg.ext.ialignBytes = 0
      ∧ (hart .rv32 Ext.all).cfg.ext.c = true := by
  decide +kernel

theorem witness_BranchesComplete :
    (wrap wideHart (wideHart.pc.toNat + (0x800#12).toInt * 2)).toNat % wideHart.cfg.ext.ialignBytes = 0
      ∧ uval wideHart 6#5 = uval wideHart 6#5 ∧ uval wideHart 6#5 ≠ uval wideHart 7#5
      ∧ signed 32 (uval wideHart 6#5) < signed 32 (uval wideHart 7#5) ∧ ¬uval wideHart 6#5 < uval wideHart 7#5
      ∧ (hart .rv32 Ext.all).cfg.ext.c = true := by
  decide +kernel

theorem witness_MisalignedTargetsTrap :
    (wrap wideHart (wideHart.pc.toNat + (1#20).toInt * 2)).toNat % wideHart.cfg.ext.ialignBytes ≠ 0
      ∧ (wrap wideHart ((uval wideHart 6#5 + (0#12).toInt) / 2 * 2)).toNat % wideHart.cfg.ext.ialignBytes ≠ 0
      ∧ (wrap wideHart (wideHart.pc.toNat + (1#12).toInt * 2)).toNat % wideHart.cfg.ext.ialignBytes ≠ 0
      ∧ uval wideHart 6#5 = uval wideHart 6#5 ∧ uval wideHart 6#5 ≠ uval wideHart 7#5
      ∧ signed 32 (uval wideHart 6#5) < signed 32 (uval wideHart 7#5) ∧ signed 32 (uval wideHart 7#5) ≥ signed 32 (uval wideHart 6#5)
      ∧ uval wideHart 7#5 < uval wideHart 6#5 ∧ uval wideHart 6#5 ≥ uval wideHart 7#5 := by
  decide +kernel

/-- The modes in which the privileged instructions run, and those in which they do not: FencesOnlyMovePc,
WaitForInterruptRetiresOrStays, EnvironmentCallByMode, TrapReturnsComplete, PrivilegedInstructionsAreIllegalBelow. -/
theorem witness_modes :
    ∃ m s u st ut : State,
      m.priv = .M ∧ s.priv = .S ∧ s.mstatus.tvm = false ∧ s.mstatus.tw = false ∧ s.mstatus.tsr = false
        ∧ u.priv = .U ∧ u.mstatus.tw = false ∧ u.cfg.wfiInUMode = true
        ∧ st.priv = .S ∧ st.mstatus.tvm = true ∧ st.mstatus.tw = true ∧ st.mstatus.tsr = true
        ∧ ut.priv = .U ∧ ut.cfg.wfiInUMode = false :=
  let tight : Mstatus := { Mstatus.reset with tvm := true, tw := true, tsr := true }
  ⟨State.reset, { State.reset with priv := .S }, { State.reset with priv := .U },
   { State.reset with priv := .S, mstatus := tight },
   { State.resetWith { Config.default with wfiInUMode := false } with priv := .U }, by decide +kernel⟩

theorem witness_BreakpointOnlyFromEbreak :
    (∃ (i : Instr) (s u : State) (epc tval : Word), exec i s = .fault (.trap .breakpoint epc tval u))
      ∧ (∃ (i : Instr) (s t : State), exec i s = .next t ∧ s.mcause ≠ Exc.breakpoint.code ∧ t.mcause = Exc.breakpoint.code) := by
  refine ⟨⟨.ebreak, State.resetWith { Config.default with trapDelivery := .environment }, _, 0x1000#64, 0x1000#64, by rfl⟩, ?_⟩
  obtain ⟨t, ht, h⟩ := exists_of_after (r := exec .cEbreak State.reset) (p := fun t => t.mcause == Exc.breakpoint.code)
    (by decide +kernel)
  exact ⟨_, _, t, ht, by decide +kernel, eq_of_beq h⟩

theorem witness_CsrInstructionsComplete :
    ([(0x001#12, .fflags), (0x002#12, .frm), (0x003#12, .fcsr), (0x017#12, .jvt)] : List (CsrAddr × Csr)).all
        (fun p => decide (CsrAllowed { hart .rv32 Ext.all with priv := .U } p.1 p.2)) = true
      ∧ ([(0x100#12, .sstatus), (0x105#12, .stvec), (0x140#12, .sscratch), (0x141#12, .sepc), (0x142#12, .scause),
          (0x143#12, .stval)] : List (CsrAddr × Csr)).all (fun p => decide (CsrAllowed { hart .rv64 Ext.all with priv := .S } p.1 p.2))
        = true
      ∧ ([(0x300#12, .mstatus), (0x305#12, .mtvec), (0x340#12, .mscratch), (0x341#12, .mepc), (0x342#12, .mcause),
          (0x343#12, .mtval)] : List (CsrAddr × Csr)).all (fun p => decide (CsrAllowed (hart .rv64 Ext.all) p.1 p.2)) = true
      ∧ ((0x343#12).toNat, Csr.mtval) ∈ csrTable ∧ ∀ c, ((0x344#12).toNat, c) ∉ csrTable := by
  refine ⟨by decide +kernel, by decide +kernel, by decide +kernel, by decide +kernel, fun c => by cases c <;> decide +kernel⟩

/-- A CSR of a higher mode; a write of a read-only address in the mode it needs; an address the spec does not model; jvt
without Zcmt; fflags with the unit off. -/
theorem witness_CsrInstructionsStop :
    (Priv.code Priv.U).toNat < (0x140#12).toNat / 256 % 4 ∧ (Priv.code Priv.S).toNat < (0x340#12).toNat / 256 % 4
      ∧ ¬(Priv.code Priv.M).toNat < (0xf11#12).toNat / 256 % 4 ∧ (0xf11#12).toNat / 1024 = 3 ∧ csrOf 0xf11#12 = none
      ∧ ¬(0x7c0#12).toNat / 1024 = 3 ∧ csrOf 0x7c0#12 = none
      ∧ csrOf 0x017#12 = some .jvt ∧ Csr.present Ext.noPushJump .jvt = false
      ∧ csrOf 0x001#12 = some .fflags ∧ Csr.isFp .fflags = true ∧ ¬FpOn State.reset := by
  decide +kernel

/-- All the premises of an atomic operation. -/
abbrev Atomic (s : State) (addr : Word) (w a : Nat) : Prop :=
  addr.toNat % w = 0 ∧ Mapped s .atomic addr w ∧ Mapped s .load addr w ∧ Holds s addr w a

/-- LoadReservedCompletes and AtomicOperationsComplete. -/
theorem witness_atomics :
    Atomic memHart (memHart.getX 8#5) 4 0x44332211 ∧ Atomic memHart (memHart.getX 8#5) 8 0x8877665544332211
      ∧ Atomic memHart (memHart.getX 9#5) 4 0x88776655 := by
  decide +kernel

theorem witness_StoreConditionalCompletes :
    Atomic memHart (memHart.getX 8#5) 8 0x8877665544332211 ∧ memHart.reservation ≠ some ⟨memHart.getX 8#5, 8⟩
      ∧ memHart.cfg.scMayFailSpuriously = false
      ∧ { memHart with reservation := some ⟨0x2000#64, 8⟩ }.reservation = some ⟨memHart.getX 8#5, 8⟩ := by
  decide +kernel

theorem witness_OrderingBitsHaveNoEffect : Ext.all.a = true ∧ 4 ≤ Xlen.rv32.bytes ∧ ¬8 ≤ Xlen.rv32.bytes ∧ 8 ≤ Xlen.rv64.bytes := by
  decide

/-- Every rm field that names a direction, and 111 with each end of frm's range: FloatArithmeticCompletes,
FloatConversionsComplete; the unit on under both deliveries: those and the other floating-point statements. -/
theorem witness_float_forms :
    FpOn (hart .rv32 Ext.all) ∧ FpOn (State.resetWith { Config.default with trapDelivery := .environment })
      ∧ ([(0#3, .rne), (1#3, .rtz), (2#3, .rdn), (3#3, .rup), (4#3, .rmm), (7#3, .rne)] : List (BitVec 3 × RoundingMode)).all
          (fun p => (hart .rv64 Ext.all).effectiveRm p.1 == some p.2) = true
      ∧ { hart .rv64 Ext.all with frm := 4#3 }.effectiveRm 7#3 = some .rmm := by
  decide +kernel

/-- The patterns of the ten classes of a format, in the order of their bits. -/
def classes : FloatFormat → List Word
  | .H => [0xfc00, 0xfbff, 0x83ff, 0x8000, 0, 1, 0x0400, 0x7c00, 0xfdff, 0x7e00]
  | .S => [0xff800000, 0xff7fffff, 0x807fffff, 0x80000000, 0, 1, 0x00800000, 0x7f800000, 0xffbfffff, 0x7fc00000]
  | .D => [0xfff0000000000000, 0xffefffffffffffff, 0x800fffffffffffff, 0x8000000000000000, 0, 1, 0x0010000000000000,
      0x7ff0000000000000, 0xfff7ffffffffffff, 0x7ff8000000000000]

/-- 44_f_single.md R310: each class at one end of its range, as an operand and as the instruction answers. -/
theorem witness_ClassifyByTable :
    ([(.H, .fclassH), (.S, .fclassS), (.D, .fclassD)] : List (FloatFormat × (RegIdx → RegIdx → Instr))).all (fun p =>
      (List.range 10).all (fun bit =>
        let s := withF (hart .rv64 Ext.all) [(6, box Ext.all p.1 (((classes p.1)[bit]?).getD 0))]
        s.operand p.1 6#5 == ((classes p.1)[bit]?).getD 0
          && after (exec (p.2 5#5 6#5) s) (fun t => t.getX 5#5 == BitVec.ofNat 64 (2 ^ bit)))) = true := by
  decide +kernel

/-- With the addresses and numbers of witness_LoadsComplete and witness_StoresComplete, and a half word. -/
theorem witness_FloatMovesLoadsAndStoresComplete :
    FpOn memHart ∧ Readable memHart (immAddr memHart 8#5 6#12) 2 0x8877 ∧ Readable memHart (immAddr memHart 8#5 0#12) 4 0x44332211
      ∧ Writable memHart (immAddr memHart 8#5 2#12) 2 := by
  decide +kernel

theorem witness_FloatInstructionsIllegal :
    (Instr.fcvtHD 5#5 6#5 0#3).availability.needs.any (fun u => u == .F || u == .D || u == .Zfh) = true
      ∧ (Instr.cFldsp 5#5 0#6).availability.needs.any (fun u => u == .F || u == .D || u == .Zfh) = true ∧ ¬FpOn State.reset
      ∧ (7#3 = 0b111#3 ∧ 5 ≤ { State.reset with frm := 5#3 }.frm.toNat) := by
  decide +kernel

theorem witness_BoxingAndUnboxing :
    FloatFormat.width .D ≤ Ext.all.flen ∧ FloatFormat.width .S ≤ noD.flen ∧ FloatFormat.width .H ≤ noD.flen
      ∧ (0xffff3c00#64).toNat < 2 ^ noD.flen ∧ (0xffff3c00#64).toNat / 2 ^ FloatFormat.width .H = 2 ^ (noD.flen - FloatFormat.width .H) - 1
      ∧ (0xfffe3c00#64).toNat / 2 ^ FloatFormat.width .H ≠ 2 ^ (noD.flen - FloatFormat.width .H) - 1 := by
  decide +kernel

/-- Operands of each case: the classes of a format, both infinities, both zeros, both kinds of NaN, finite numbers of either
sign. -/
theorem witness_InvalidOperationsGiveTheCanonicalNan :
    ([.H, .S, .D] : List FloatFormat).all (fun f =>
      let c (k : Nat) : Word := ((classes f)[k]?).getD 0
      decide (IsInf f (c 0) ∧ IsInf f (c 7) ∧ negative f (c 0) ≠ negative f (c 7) ∧ IsZero f (c 3) ∧ IsZero f (c 4)
        ∧ IsSnan f (c 8) ∧ IsNan f (c 9) ∧ ¬IsSnan f (c 9) ∧ IsFinite f (c 1) ∧ ¬IsZero f (c 1) ∧ ¬IsNan f (c 1)
        ∧ negative f (c 1) = true ∧ ¬IsZero f (c 6) ∧ ¬IsNan f (c 6))
      && decide (InfiniteProduct f (c 7) (c 6) ∧ InfiniteProduct f (c 6) (c 7) ∧ InfiniteProduct f (c 7) (c 0)
        ∧ productSign f (c 7) (c 6) ≠ negative f (c 0))) = true := by
  decide +kernel

/-- The numbers of a few single-precision patterns. -/
theorem realOf_samples :
    realOf .S 0x3f800000#64 = 1 ∧ realOf .S 0xbf800000#64 = -1 ∧ realOf .S 0x3fc00000#64 = 3 / 2 ∧ realOf .S 0#64 = 0
      ∧ realOf .S 0x53800000#64 = 2 ^ 40 ∧ realOf .S 0xd3800000#64 = -2 ^ 40 := by
  refine ⟨?_, ?_, ?_, ?_, ?_, ?_⟩ <;>
    norm_num [realOf, negative, expField, fracField, FloatFormat.fracBits, FloatFormat.expBits, FloatFormat.bias, FloatFormat.width, zpow_neg, zpow_natCast]

theorem witness_SumsAndProductsAreRoundedOnce :
    IsFinite .S 0x3f800000#64 ∧ IsFinite .S 0xbf800000#64 ∧ IsFinite .S 0#64
      ∧ realOf .S 0x3f800000#64 + realOf .S 0x3f800000#64 ≠ 0 ∧ realOf .S 0x3f800000#64 * realOf .S 0xbf800000#64 ≠ 0
      ∧ realOf .S 0x3f800000#64 * realOf .S 0x3f800000#64 + realOf .S 0x3f800000#64 ≠ 0
      ∧ realOf .S 0x3f800000#64 + realOf .S 0xbf800000#64 = 0
      ∧ ¬(IsZero .S 0x3f800000#64 ∧ IsZero .S 0xbf800000#64 ∧ negative .S 0x3f800000#64 = negative .S 0xbf800000#64)
      ∧ realOf .S 0#64 * realOf .S 0xbf800000#64 = 0
      ∧ realOf .S 0x3f800000#64 * realOf .S 0x3f800000#64 + realOf .S 0xbf800000#64 = 0
      ∧ ¬(realOf .S 0x3f800000#64 * realOf .S 0x3f800000#64 = 0
          ∧ productSign .S 0x3f800000#64 0x3f800000#64 = negative .S 0xbf800000#64)
      ∧ productSign .S 0#64 0xbf800000#64 = negative .S 0x80000000#64 ∧ IsZero .S 0x80000000#64 := by
  obtain ⟨h₁, h₂, -, h₄, -, -⟩ := realOf_samples
  refine ⟨by decide +kernel, by decide +kernel, by decide +kernel, ?_, ?_, ?_, ?_, by decide +kernel, ?_, ?_, ?_, by decide +kernel,
    by decide +kernel⟩ <;> norm_num [h₁, h₂, h₄]

/-- The infinite operands of a valid sum, product and fused operation, and the two zeros of one sign. -/
theorem witness_SumsAndProductsAreRoundedOnce_infinite :
    ([.H, .S, .D] : List FloatFormat).all (fun f =>
      let c (k : Nat) : Word := ((classes f)[k]?).getD 0
      decide (IsInf f (c 0) ∧ ¬IsNan f (c 0) ∧ ¬(IsInf f (c 0) ∧ negative f (c 0) ≠ negative f (c 0)) ∧ ¬IsNan f (c 6)
        ∧ ¬(IsInf f (c 6) ∧ negative f (c 0) ≠ negative f (c 6)))
      && decide (InfiniteProduct f (c 0) (c 1) ∧ InfiniteProduct f (c 2) (c 7) ∧ InfiniteProduct f (c 0) (c 7)
        ∧ ¬(IsInf f (c 7) ∧ productSign f (c 0) (c 1) ≠ negative f (c 7)) ∧ ¬IsNan f (c 3))
      && decide (IsFinite f (c 1) ∧ IsFinite f (c 4) ∧ IsZero f (c 3) ∧ negative f (c 3) = true ∧ IsZero f (c 4)
        ∧ negative f (c 4) = false)) = true := by
  decide +kernel

theorem witness_QuotientsAndRootsAreRoundedOnce :
    IsFinite .S 0x3fc00000#64 ∧ IsFinite .S 0xbf800000#64 ∧ ¬IsZero .S 0x3fc00000#64 ∧ ¬IsZero .S 0xbf800000#64
      ∧ 0 < realOf .S 0x3fc00000#64 ∧ IsFinite .S 0x80000000#64 ∧ IsZero .S 0x80000000#64
      ∧ IsInf .S 0x7f800000#64 ∧ negative .S 0x7f800000#64 = false ∧ IsInf .S 0xff800000#64 := by
  obtain ⟨-, -, h, -⟩ := realOf_samples
  exact ⟨by decide +kernel, by decide +kernel, by decide +kernel, by decide +kernel, by norm_num [h], by decide +kernel,
    by decide +kernel, by decide +kernel, by decide +kernel, by decide +kernel⟩

theorem witness_ConversionsToFloatAreRoundedOnce :
    (-2 ^ 63 : Int) ≠ 0 ∧ IsFinite .D 1#64 ∧ ¬IsZero .D 1#64 ∧ IsNan .S 0x7fc00000#64 ∧ IsInf .H 0xfc00#64 ∧ IsZero .D 0x8000000000000000#64 := by
  decide +kernel

theorem witness_ConversionsToIntegerSaturate :
    IsNan .S 0x7fc00000#64 ∧ IsInf .S 0xff800000#64 ∧ IsFinite .S 0x53800000#64
      ∧ (2 ^ 31 - 1 : Int) < roundToInt .rdn (realOf .S 0x53800000#64) ∧ roundToInt .rdn (realOf .S 0xd3800000#64) < -2 ^ 31
      ∧ ((roundToInt .rdn (realOf .S 0x3f800000#64) : ℤ) : ℝ) = realOf .S 0x3f800000#64
      ∧ ((roundToInt .rdn (realOf .S 0x3fc00000#64) : ℤ) : ℝ) ≠ realOf .S 0x3fc00000#64
      ∧ (0 : Int) ≤ roundToInt .rdn (realOf .S 0x3fc00000#64) ∧ roundToInt .rdn (realOf .S 0x3fc00000#64) ≤ 2 ^ 31 - 1 := by
  obtain ⟨h₁, -, h₃, -, h₅, h₆⟩ := realOf_samples
  have e₃ : ⌊(3 / 2 : ℝ)⌋ = 1 := by norm_num [Int.floor_eq_iff]
  have e₅ : ⌊(2 ^ 40 : ℝ)⌋ = 2 ^ 40 := by norm_num [Int.floor_eq_iff]
  have e₆ : ⌊(-2 ^ 40 : ℝ)⌋ = -2 ^ 40 := by norm_num [Int.floor_eq_iff]
  refine ⟨by decide +kernel, by decide +kernel, by decide +kernel, ?_, ?_, ?_, ?_, ?_, ?_⟩ <;>
    simp only [roundToInt, h₁, h₃, h₅, h₆, e₃, e₅, e₆] <;> norm_num

theorem witness_OrderOfFloatingPointNumbers :
    IsNan .S 0x7fc00000#64 ∧ ¬IsNan .S 0x3f800000#64 ∧ ¬IsNan .S 0x3fc00000#64
      ∧ extOf .S 0x3f800000#64 < extOf .S 0x3fc00000#64
      ∧ (IsZero .S 0x80000000#64 ∧ IsZero .S 0#64 ∧ negative .S 0x80000000#64 = true ∧ negative .S 0#64 = false) := by
  obtain ⟨h₁, -, h₃, -⟩ := realOf_samples
  refine ⟨by decide +kernel, by decide +kernel, by decide +kernel, ?_, by decide +kernel⟩
  have e₁ : extOf .S 0x3f800000#64 = ((1 : ℝ) : EReal) := by
    rw [extOf, if_neg (by decide +kernel), h₁]
  have e₃ : extOf .S 0x3fc00000#64 = ((3 / 2 : ℝ) : EReal) := by
    rw [extOf, if_neg (by decide +kernel), h₃]
  rw [e₁, e₃, EReal.coe_lt_coe_iff]
  norm_num

theorem witness_DoubleMovesComplete : (0#3 : CRegIdx) ≠ 7#3 ∧ (5#3 : CRegIdx) = 5#3 := by decide

/-- A hart with a frame of two slots, x1 and x8 saved in it, below 0x2010 on RV32. -/
def frameHart : State := withMem (withX (hart .rv32 Ext.all) [(2, 0x2000)]) [(0x2008, 0x00003001, 4), (0x200c, 0x88888888, 4)]

/-- PushCompletes and PopsComplete with two registers and distinct values, and the full list of thirteen on RV64. -/
theorem witness_push_and_pop :
    4 ≤ (5#4).toNat ∧ (listed 5#4).reverse = [8#5, 1#5] ∧ (listed 15#4).length = 13
      ∧ (∀ j < 2, Readable frameHart (slot frameHart (wrap frameHart (uval frameHart 2#5 + adjustment .rv32 5#4 0#2)) j) 4
          (if j = 0 then 0x88888888 else 0x00003001))
      ∧ (∀ j < 2, Writable frameHart (slot frameHart (frameHart.getX 2#5) j) 4)
      ∧ (∀ j < 13, Writable memHart (slot memHart (memHart.getX 2#5) j) 8) := by
  decide +kernel

theorem witness_PushAndPopsTrap :
    (3#4).toNat < 4 ∧ 4 ≤ (4#4).toNat
      ∧ ¬AlignedOrEmulated (withX frameHart [(2, 0x2002)]) (slot frameHart 0x2002#64 0) 4
      ∧ AlignedOrEmulated (smallHart .trap) (slot (smallHart .trap) 0x2000#64 0) 8
      ∧ ¬Mapped (smallHart .trap) .store (slot (smallHart .trap) 0x2000#64 0) 8
      ∧ ¬AlignedOrEmulated frameHart
          (slot frameHart (wrap frameHart (uval (withX frameHart [(2, 0x2002)]) 2#5 + adjustment .rv32 4#4 0#2)) 0) 4
      ∧ ¬Mapped (smallHart .trap) .load (slot (smallHart .trap) (wrap (smallHart .trap) (uval (smallHart .trap) 2#5 + adjustment .rv64 4#4 3#2)) 0) 8 := by
  decide +kernel

/-- A trap at the first slot, and at the last of three with the two above it reached: the hart of Z.46 and Z.47. -/
theorem witness_PushAndPopsTrap_later_slot :
    let s := withX (withMem eightHart [(0x2000, 0x9999999988888888, 8)]) [(2, 0x2008)]
    let t := withX s [(2, 0x1ff8)]
    let top (j : Nat) : Word := slot t (wrap t (uval t 2#5 + adjustment .rv32 6#4 0#2)) j
    4 ≤ (6#4).toNat ∧ (listed 6#4).length = 3 ∧ s.cfg.xlen.bytes = 4
      ∧ (∀ i < 2, Writable s (slot s (s.getX 2#5) i) 4) ∧ ¬Writable s (slot s (s.getX 2#5) 2) 4
      ∧ (∀ i < 2, Readable t (top i) 4 (if i = 0 then 0x99999999 else 0x88888888))
      ∧ AlignedOrEmulated t (top 2) 4 ∧ ¬Mapped t .load (top 2) 4 := by
  decide +kernel

theorem witness_TableJumpsComplete :
    (∃ (index : BitVec 8) (s : State) (v : Nat), s.jvt.toNat % 64 = 0
        ∧ Mapped s .execute (wrap s (s.jvt.toNat / 64 * 64 + index.toNat * 8)) 8
        ∧ (∀ k < 8, byteAddr s (wrap s (s.jvt.toNat / 64 * 64 + index.toNat * 8)) k ∉ s.stale)
        ∧ Holds s (wrap s (s.jvt.toNat / 64 * 64 + index.toNat * 8)) 8 v ∧ s.cfg.xlen.bytes = 8)
      ∧ (∃ s : State, s.jvt.toNat % 64 ≠ 0)
      ∧ (∃ s : State, s.jvt.toNat % 64 = 0 ∧ ¬Mapped s .execute (wrap s (s.jvt.toNat / 64 * 64 + 255 * 8)) 8 ∧ s.cfg.xlen.bytes = 8) :=
  ⟨⟨255#8, tableHart [], 0x4001, by decide +kernel⟩,
   ⟨{ hart .rv64 Ext.all with jvt := 0x303f#64 }, by decide +kernel⟩,
   ⟨{ smallHart .trap with jvt := 0x3000#64 }, by decide +kernel⟩⟩

/-- memHart with memory at 0x2000 to 0x2004 alone, without a value at 0x2005 to 0x2007. -/
def holedHart : State := { memHart with mem := [], stale := [] }.placeBytes [(0x2000, 1), (0x2001, 2), (0x2002, 3), (0x2003, 4), (0x2004, 5)]

/-- A parcel that may be fetched and is not stale. -/
abbrev Fetchable (s : State) (addr : Word) : Prop := Mapped s .execute addr 2 ∧ ∀ j < 2, byteAddr s addr j ∉ s.stale

/-- The hart after reset with memory loaded. -/
def loadedHart (ms : List (Nat × Nat × Nat)) : State := withMem State.reset ms

/-- The first byte of an access, a middle one, and the last; a pop whose second slot has none; either parcel; a table entry. -/
theorem witness_ReadsOfBytesWithoutAValueStop :
    ([(immAddr holedHart 8#5 6#12, 2, 0), (immAddr holedHart 8#5 4#12, 2, 1), (holedHart.getX 8#5, 8, 5)] :
        List (Word × Nat × Nat)).all (fun p => decide (FpOn holedHart ∧ AlignedOrEmulated holedHart p.1 p.2.1
          ∧ Mapped holedHart .load p.1 p.2.1 ∧ FirstByte holedHart p.1 p.2.1 (NoValue holedHart) p.2.2)) = true
      ∧ ((holedHart.getX 8#5).toNat % 8 = 0 ∧ Mapped holedHart .atomic (holedHart.getX 8#5) 8)
      ∧ (let s := withMem (withX (hart .rv32 Ext.all) [(2, 0x2000)]) [(0x200c, 0x88888888, 4), (0x2008, 0x3001, 2)]
         let addr (j : Nat) : Word := slot s (wrap s (uval s 2#5 + adjustment .rv32 5#4 0#2)) j
         4 ≤ (5#4).toNat ∧ 1 < (listed 5#4).length ∧ s.cfg.xlen.bytes = 4 ∧ (∀ i < 1, Readable s (addr i) 4 0x88888888)
           ∧ AlignedOrEmulated s (addr 1) 4 ∧ Mapped s .load (addr 1) 4 ∧ FirstByte s (addr 1) 4 (NoValue s) 2)
      ∧ ([(0, []), (1, [(0x1000, 0x93, 1)])] : List (Nat × List (Nat × Nat × Nat))).all (fun p =>
          let s := loadedHart p.2
          decide (NotHalting s) && decide (Fetchable s s.pc)
            && decide (FirstByte s s.pc 2 (NoValue s) p.1)) = true
      ∧ ([(0, [(0x1000, 0x0293, 2)]), (1, [(0x1000, 0x110293, 3)])] : List (Nat × List (Nat × Nat × Nat))).all (fun p =>
          let s := loadedHart p.2
          let next := effAddr s.xlen s.pc 2#64
          decide (NotHalting s) && decide (Fetchable s s.pc) && decide (Holds s s.pc 2 0x0293)
            && decide (Fetchable s next)
            && decide (FirstByte s next 2 (NoValue s) p.1)) = true
      ∧ (let s := { hart .rv64 Ext.all with jvt := 0x3000#64 }
         let entry := wrap s (s.jvt.toNat / 64 * 64 + (255#8).toNat * 8)
         s.jvt.toNat % 64 = 0 ∧ s.cfg.xlen.bytes = 8 ∧ Mapped s .execute entry 8 ∧ (∀ j < 8, byteAddr s entry j ∉ s.stale)
           ∧ FirstByte s entry 8 (NoValue s) 0) := by
  refine ⟨?_, ?_, ?_, ?_, ?_, ?_⟩ <;> decide +kernel

end Sys2Proof.Tests
end

section
/-! Proofs about the scope of the model (00_scope.md): what one step runs, and what no step changes. First, what the meaning of any
instruction can do on the way to a next state, in one lemma over all instructions (`exec_effect`). -/

namespace Sys2Proof.Machine

/-! ## The writes an instruction makes before it moves pc -/

/-- The second state is the first after writes of registers, of flags and of memory, and after free values have been drawn. -/
inductive Written (s : State) : State → Prop where
  | refl : Written s s
  | setX {u : State} (r : RegIdx) (v : Word) (hu : Written s u) : Written s (u.setX r v)
  | setF {u : State} (r : RegIdx) (v : Word) (hu : Written s u) : Written s (u.setF r v)
  | orFlags {u : State} (flags : FpFlags) (hu : Written s u) : Written s (u.orFlags flags)
  | poke {u : State} (addr : Word) (n : Nat) (v : Word) (hu : Written s u) : Written s (u.poke addr n v)
  | drawn {u : State} (hu : Written s u) : Written s u.drawn

/-- Writes leave the parameters, the trap vectors and the reservation. -/
theorem Written.frame {s u : State} (hu : Written s u) :
    u.cfg = s.cfg ∧ u.mtvec = s.mtvec ∧ u.stvec = s.stvec ∧ u.reservation = s.reservation := by
  induction hu with
  | refl => simp
  | setX _ _ _ ih => simpa using ih
  | setF _ _ _ ih => simpa using ih
  | orFlags _ _ ih => simpa using ih
  | poke _ _ _ _ ih => simpa using ih
  | drawn _ ih => simpa using ih

theorem Written.cfg_eq {s u : State} (hu : Written s u) : u.cfg = s.cfg := hu.frame.1

theorem Written.reservation_eq {s u : State} (hu : Written s u) : u.reservation = s.reservation := by
  obtain ⟨-, -, -, hr⟩ := hu.frame
  exact hr

theorem Written.trans {s u w : State} (hu : Written s u) (hw : Written u w) : Written s w := by
  induction hw with
  | refl => exact hu
  | setX r v _ ih => exact ih.setX r v
  | setF r v _ ih => exact ih.setF r v
  | orFlags flags _ ih => exact ih.orFlags flags
  | poke addr n v _ ih => exact ih.poke addr n v
  | drawn _ ih => exact ih.drawn

/-- The stores of a push are writes (49_zc_code_size.md R553). -/
theorem written_pushAll (l : List RegIdx) (addr : Word) (s : State) : Written s (pushAll l addr s).1 := by
  induction l generalizing addr s with
  | nil => exact .refl
  | cons r rest ih =>
    unfold pushAll
    split
    · exact .refl
    · next u hu =>
      obtain ⟨-, rfl⟩ := store_ok.1 hu
      exact (Written.refl.poke _ _ _).trans (ih _ _)

/-- The loads of a pop are writes (49_zc_code_size.md R553). -/
theorem written_popAll (l : List RegIdx) (addr : Word) (s : State) : Written s (popAll l addr s).1 := by
  induction l generalizing addr s with
  | nil => exact .refl
  | cons r rest ih =>
    unfold popAll
    split
    · exact .refl
    · exact (Written.refl.setX _ _).trans (ih _ _)

/-- The free value a store-conditional may draw is a write (log 5). -/
theorem written_scDrawn (s : State) (addr : Word) (n : Nat) : Written s (s.scDrawn addr n) := by
  unfold State.scDrawn
  split
  · exact .drawn .refl
  · exact .refl

/-- The free value a CSR read may draw is a write (log 5). -/
theorem written_csrRead (s : State) (c : Csr) : Written s (s.csrRead c).2 := by
  rcases csrRead_state s c with h | h <;> rw [h]
  · exact .refl
  · exact .drawn .refl

/-! ## What the meaning of an instruction can do -/

/-- Where a jump can go. The jumps of 4 bytes check the alignment of the target (60_exceptions.md R601); those of 2 bytes, which
exist with C only, go to an even address without a check (log 13). -/
inductive JumpTarget (i : Instr) (s : State) : Word → Prop where
  | checked {w : Word} (haligned : w.toNat % s.cfg.ext.ialignBytes = 0) (hfits : fitsX s.cfg w) : JumpTarget i s w
  | relative {m : Nat} (offset : BitVec m) (hsize : i.size = 2) :
      JumpTarget i s (effAddr s.cfg.xlen s.pc (sext s.cfg.xlen (offset ++ 0#1)))
  | viaRegister {w : Word} (hsize : i.size = 2) (hfits : fitsX s.cfg w) : JumpTarget i s (w &&& ~~~1#64)
  | entry {addr w : Word} (hsize : i.size = 2) (hread : s.fetchRead addr s.xlen.bytes = .ok w) : JumpTarget i s (w &&& ~~~1#64)

/-- All the meaning of an instruction can do on the way to a next state. -/
inductive Effect (i : Instr) (s : State) : State → Prop where
  /-- It writes registers and memory and moves past itself. -/
  | retire {u : State} (hu : Written s u) : Effect i s (u.advance i.size)
  /-- It writes registers and jumps. -/
  | jump {u : State} {w : Word} (hu : Written s u) (hw : JumpTarget i s w) : Effect i s { u with pc := w }
  /-- It takes an exception, after the accesses it has made (60_exceptions.md R612, R614). -/
  | trap {u : State} {c : Exc} {v : Word} (hu : Written s u) (hmachine : s.cfg.trapDelivery = .machine) :
      Effect i s (u.enterTrap c v)
  /-- It writes a CSR, with the read before and the write of rd after (60_exceptions.md R622). -/
  | writeCsr {u w : State} {addr : CsrAddr} {c : Csr} {v : Word} (hcheck : s.csrCheck i addr true = .ok c) (hu : Written s u)
      (hw : Written (u.csrWrite v c) w) : Effect i s (w.advance i.size)
  /-- It makes a reservation (43_a_atomic.md R250, R251). -/
  | reserve {u : State} {addr : Word} {n : Nat} (hu : Written s u) (hn : n = 4 ∨ n = 8) (hfits : fitsX s.cfg addr)
      (hcheck : checkAccess s.cfg .load true addr n = .ok ()) :
      Effect i s { u.advance i.size with reservation := some ⟨addr, n⟩ }
  /-- It ends a reservation (43_a_atomic.md R251). -/
  | unreserve {u : State} (hu : Written s u) : Effect i s { u.advance i.size with reservation := none }
  /-- It empties the fetch-coherence set (40_base_compute_system.md R172). -/
  | fetchFence : Effect i s { s.advance i.size with stale := [] }
  /-- It waits (40_base_compute_system.md R183, log 11). -/
  | wait : Effect i s s.drawn
  /-- It is mret in M mode (40_base_compute_system.md R182). -/
  | returnFromM (hi : i = .mret) (hpriv : s.priv = .M) : Effect i s s.returnFromM
  /-- It is sret in S or M mode (40_base_compute_system.md R181). -/
  | returnFromS (hi : i = .sret) (hpriv : s.priv ≠ .U) : Effect i s s.returnFromS

/-- An outcome that always writes registers and memory and moves past the instruction. -/
def Retires (i : Instr) (s : State) (r : Result) : Prop := ∃ u, Written s u ∧ r = .next (u.advance i.size)

section
variable {i : Instr} {s t : State} {n : Nat} {rd : RegIdx}

theorem Retires.effect {r : Result} (hr : Retires i s r) (h : r = .next t) : Effect i s t := by
  obtain ⟨u, hu, rfl⟩ := hr
  cases h
  exact .retire hu

theorem retires_advance (hn : i.size = n) : Retires i s (.next (s.advance n)) :=
  ⟨s, .refl, by rw [hn]⟩

theorem retires_writeX {v : Word} (hn : i.size = n) : Retires i s (.next (s.writeX n rd v)) :=
  ⟨_, .setX rd v .refl, by rw [hn]; rfl⟩

theorem retires_moves {r q : RegIdx} {v w : Word} (hn : i.size = n) : Retires i s (.next (((s.setX r v).setX q w).advance n)) :=
  ⟨_, .setX q w (.setX r v .refl), by rw [hn]⟩

theorem retires_writeFp {fmt : FloatFormat} {r : Word × FpFlags} (hn : i.size = 4) : Retires i s (.next (s.writeFp fmt rd r)) :=
  ⟨_, .setF rd _ (.orFlags r.2 .refl), by rw [hn]; rfl⟩

theorem retires_writeInt {v : Word} {flags : FpFlags} (hn : i.size = 4) : Retires i s (.next (s.writeInt rd v flags)) :=
  ⟨_, .setX rd v (.orFlags flags .refl), by rw [hn]; rfl⟩

theorem retires_writeRaw {fmt : FloatFormat} {v : Word} (hn : i.size = n) : Retires i s (.next (s.writeRaw n fmt rd v)) :=
  ⟨_, .setF rd _ .refl, by rw [hn]; rfl⟩

/-! The shared operations, one lemma each. -/

theorem stop_effect {e : Stop} (h : s.stop e = .next t) : Effect i s t := by
  obtain ⟨c, v, -, hm, rfl⟩ := stop_next.1 h
  exact .trap .refl hm

theorem takeTrap_effect {c : Exc} {v : Word} (h : s.takeTrap c v = .next t) : Effect i s t := by
  obtain ⟨hm, rfl⟩ := takeTrap_next.1 h
  exact .trap .refl hm

theorem loadX_effect {addr : Word} {w : Nat} {ext : Word → Word} (h : s.loadX n rd addr w ext = .next t) (hn : i.size = n) :
    Effect i s t := by
  rcases loadX_next h with ⟨v, -, rfl⟩ | ⟨hm, c, v, -, rfl⟩
  · exact (retires_writeX hn).effect rfl
  · exact .trap .refl hm

theorem storeX_effect {addr : Word} {w : Nat} {v : Word} (h : s.storeX n addr w v = .next t) (hn : i.size = n) :
    Effect i s t := by
  rcases storeX_next h with ⟨-, rfl⟩ | ⟨hm, rfl | rfl⟩
  · rw [← hn]
    exact .retire (.poke addr w v .refl)
  · exact .trap .refl hm
  · exact .trap .refl hm

/-- Writing a register does not read pc. -/
theorem setX_withPc (s : State) (w : Word) (r : RegIdx) (v : Word) :
    ({ s with pc := w } : State).setX r v = { s.setX r v with pc := w } := by
  unfold State.setX
  split <;> rfl

theorem jumpLink_effect {target : Word} (h : s.jumpLink n rd target = .next t) (hfits : fitsX s.cfg target) : Effect i s t := by
  rcases jumpLink_next h with ⟨haligned, rfl⟩ | ⟨hm, rfl⟩
  · rw [setX_withPc]
    exact .jump (.setX rd _ .refl) (.checked haligned hfits)
  · exact .trap .refl hm

/-- An effective address has XLEN bits (20_memory.md R71). -/
theorem effAddr_fits (cfg : Config) (base offset : Word) : fitsX cfg (effAddr cfg.xlen base offset) := cut_lt _ _

/-- Clearing bits keeps a value within XLEN bits. -/
theorem fitsX_and {cfg : Config} {w : Word} (h : fitsX cfg w) (mask : Word) : fitsX cfg (w &&& mask) := by
  unfold fitsX at *
  rw [BitVec.toNat_and]
  exact Nat.lt_of_le_of_lt Nat.and_le_left h

theorem branch_effect {cond : Bool} {offset : Word} (h : s.branch n cond offset = .next t) (hn : i.size = n) : Effect i s t := by
  unfold State.branch at h
  split at h
  · rcases conclude_next.1 h with hj | ⟨c, v, -, hm, rfl⟩
    · obtain ⟨haligned, rfl⟩ := jumpTo_ok.1 hj
      exact .jump .refl (.checked haligned (effAddr_fits _ _ _))
    · exact .trap .refl hm
  · exact (retires_advance hn).effect h

theorem fpGate_effect {j : Instr} {body : Result} (h : s.fpGate j body = .next t) (hbody : body = .next t → Effect i s t) :
    Effect i s t := by
  unfold State.fpGate at h
  split at h
  · exact stop_effect h
  · exact hbody h

/-- The gate of FS before an outcome that retires (10_state.md R34). -/
theorem fpGate_retires_effect {j : Instr} {body : Result} (h : s.fpGate j body = .next t) (hbody : Retires i s body) :
    Effect i s t :=
  fpGate_effect h hbody.effect

theorem fpRounded_effect {j : Instr} {rm : BitVec 3} {body : RoundingMode → Result} (h : s.fpRounded j rm body = .next t)
    (hbody : ∀ mode, Retires i s (body mode)) : Effect i s t := by
  refine fpGate_effect h fun h => ?_
  split at h
  · exact stop_effect h
  · next mode _ => exact (hbody mode).effect h

theorem fpLoad_effect {j : Instr} {fmt : FloatFormat} {addr : Word} (h : s.fpLoad j n fmt rd addr = .next t) (hn : i.size = n) :
    Effect i s t := by
  refine fpGate_effect h fun h => ?_
  rcases conclude_next.1 h with hl | ⟨c, v, -, hm, rfl⟩
  · split at hl
    · cases hl
    · cases hl
      exact (retires_writeRaw hn).effect rfl
  · exact .trap .refl hm

theorem fpStore_effect {j : Instr} {fmt : FloatFormat} {rs2 : RegIdx} {addr : Word} (h : s.fpStore j n fmt rs2 addr = .next t)
    (hn : i.size = n) : Effect i s t :=
  fpGate_effect h fun h => storeX_effect h hn

theorem loadReserved_effect {rs1 : RegIdx} (h : s.loadReserved rd (s.getX rs1) n = .next t) (hn : n = 4 ∨ n = 8)
    (hsize : i.size = 4) : Effect i s t := by
  rcases loadReserved_next h with ⟨v, hcheck, -, rfl⟩ | ⟨hm, c, v, rfl⟩
  · unfold State.writeX
    rw [← hsize]
    exact .reserve (.setX rd _ .refl) hn (getX_lt s rs1) hcheck
  · exact .trap .refl hm

theorem storeConditional_effect {addr v : Word} (h : s.storeConditional rd addr n v = .next t) (hsize : i.size = 4) :
    Effect i s t := by
  have hd := written_scDrawn s addr n
  rcases storeConditional_next h with ⟨-, -, rfl⟩ | ⟨-, -, rfl⟩ | ⟨hm, c, v, rfl⟩
  · unfold State.writeX
    rw [← hsize]
    exact .unreserve ((hd.poke addr n v).setX rd _)
  · unfold State.writeX
    rw [← hsize]
    exact .unreserve (hd.setX rd _)
  · exact .trap .refl hm

theorem amo_effect {addr : Word} {op : Word → Word} (h : s.amo rd addr n op = .next t) (hsize : i.size = 4) : Effect i s t := by
  rcases amo_next h with ⟨v, -, -, rfl⟩ | ⟨hm, c, v, rfl⟩
  · unfold State.writeX
    rw [← hsize]
    exact .retire (.setX rd _ (.poke addr n _ .refl))
  · exact .trap .refl hm

theorem csrAccess_effect {addr : CsrAddr} {reads writes : Bool} {newValue : Word → Word}
    (h : s.csrAccess i rd addr reads writes newValue = .next t) (hsize : i.size = 4) : Effect i s t := by
  rcases csrAccess_next h with ⟨c, s₁, s₂, hcheck, hs₁, hs₂, rfl⟩ | ⟨hm, rfl⟩
  · have hread : Written s s₁ := by
      cases reads <;> subst hs₁
      · exact .refl
      · exact written_csrRead s c
    have hrd : Written s₂ (if reads then s₂.setX rd (s.csrRead c).1 else s₂) := by
      cases reads
      · exact .refl
      · exact .setX rd _ .refl
    rw [← hsize]
    cases writes <;> subst hs₂
    · exact .retire (hread.trans hrd)
    · exact .writeCsr hcheck hread hrd
  · exact .trap .refl hm

/-- A push or a pop takes an exception after some of its accesses, or goes on to its final section (49_zc_code_size.md R553). -/
theorem finishSequence_effect {p : State × Option Stop} {final : State → State} (h : finishSequence p final = .next t)
    (hp : Written s p.1) (hfinal : Effect i s (final p.1)) : Effect i s t := by
  unfold finishSequence at h
  split at h
  · obtain ⟨c, v, -, hm, rfl⟩ := stop_next.1 h
    exact .trap hp (hp.cfg_eq ▸ hm)
  · cases h
    exact hfinal

/-- A register of a state reached by writes has XLEN bits. -/
theorem Written.getX_fits {u : State} (hu : Written s u) (r : RegIdx) : fitsX s.cfg (u.getX r) :=
  hu.cfg_eq ▸ getX_lt u r

theorem tableJump_effect {j : Instr} {index : BitVec 8} {link : State → State} (h : s.tableJump j index link = .next t)
    (hlink : Written s (link s)) (hsize : i.size = 2) : Effect i s t := by
  rcases tableJump_next h with ⟨w, -, hread, rfl⟩ | ⟨hm, -, rfl⟩ | ⟨hm, v, rfl⟩
  · exact .jump hlink (.entry hsize hread)
  · exact .trap .refl hm
  · exact .trap .refl hm

/-! The instructions of the Zcmp sequences and those of the system. -/

theorem execCmPush_effect {rlist : BitVec 4} {spimm : BitVec 2} (h : execCmPush rlist spimm s = .next t) :
    Effect (.cmPush rlist spimm) s t := by
  unfold execCmPush at h
  split at h
  · exact stop_effect h
  · have hp := written_pushAll (regList rlist) (effAddr s.xlen (s.getX sp) (-BitVec.ofNat 64 s.xlen.bytes)) s
    exact finishSequence_effect h hp (.retire (hp.setX sp _))

theorem execCmPop_effect {rlist : BitVec 4} {spimm : BitVec 2} (h : execCmPop rlist spimm s = .next t) :
    Effect (.cmPop rlist spimm) s t := by
  unfold execCmPop at h
  split at h
  · exact stop_effect h
  · have hp := written_popAll (regList rlist) (topSlot s rlist spimm) s
    exact finishSequence_effect h hp (.retire (hp.setX sp _))

theorem execCmPopret_effect {rlist : BitVec 4} {spimm : BitVec 2} (h : execCmPopret rlist spimm s = .next t) :
    Effect (.cmPopret rlist spimm) s t := by
  unfold execCmPopret at h
  split at h
  · exact stop_effect h
  · have hp := written_popAll (regList rlist) (topSlot s rlist spimm) s
    exact finishSequence_effect h hp (.jump (hp.setX sp _) (.viaRegister rfl (hp.getX_fits ra)))

theorem execCmPopretz_effect {rlist : BitVec 4} {spimm : BitVec 2} (h : execCmPopretz rlist spimm s = .next t) :
    Effect (.cmPopretz rlist spimm) s t := by
  unfold execCmPopretz at h
  split at h
  · exact stop_effect h
  · have hp := written_popAll (regList rlist) (topSlot s rlist spimm) s
    exact finishSequence_effect h hp (.jump ((hp.setX a0 _).setX sp _) (.viaRegister rfl (hp.getX_fits ra)))

theorem execCmMvsa01_effect {r1s r2s : CRegIdx} (h : execCmMvsa01 r1s r2s s = .next t) : Effect (.cmMvsa01 r1s r2s) s t := by
  unfold execCmMvsa01 at h
  split at h
  · exact stop_effect h
  · exact (retires_moves rfl).effect h

theorem compressedBranch_effect {m : Nat} {cond : Bool} {offset : BitVec m} (hsize : i.size = 2)
    (h : Host.Outcome.next (if cond then { s with pc := effAddr s.xlen s.pc (sext s.xlen (offset ++ 0#1)) } else s.advance 2)
      = (.next t : Result)) : Effect i s t := by
  cases cond
  · exact (retires_advance hsize).effect h
  · cases h
    exact .jump .refl (.relative offset hsize)

theorem execMret_effect (h : execMret s = .next t) : Effect .mret s t := by
  unfold execMret at h
  split at h
  · exact stop_effect h
  · next hp =>
    cases h
    exact .returnFromM rfl (by simpa using hp)

theorem execSret_effect (h : execSret s = .next t) : Effect .sret s t := by
  unfold execSret at h
  split at h
  · exact stop_effect h
  · next hp =>
    cases h
    refine .returnFromS rfl fun hu => hp ?_
    simp [hu]

theorem execWfi_effect (h : execWfi s = .next t) : Effect .wfi s t := by
  unfold execWfi at h
  split at h
  · exact stop_effect h
  · cases h
    split
    · exact .retire (.drawn .refl)
    · exact .wait

theorem execSfenceVma_effect {rs1 rs2 : RegIdx} (h : execSfenceVma rs1 rs2 s = .next t) : Effect (.sfenceVma rs1 rs2) s t := by
  unfold execSfenceVma at h
  split at h
  · exact stop_effect h
  · exact (retires_advance rfl).effect h

end

/-! ## Every instruction -/

/-- What the meaning of any instruction can do on the way to a next state (00_scope.md R12). -/
theorem exec_effect {i : Instr} {s t : State} (h : exec i s = .next t) : Effect i s t := by
  cases i with
  -- Integer computation: one register written.
  | lui | auipc | cLi | cLui | cMv | cZextB | cSextB | cZextH | cSextH | cZextW | clzw | ctzw | cpopw | sextB | sextH
      | zextHRv32 | zextHRv64 | cNot | clz | ctz | cpop | orcB | rev8Rv32 | rev8Rv64 | addi | xori | ori | andi | slli
      | srli | srai | add | sub | sll | xor | srl | sra | or | and | cAddi4spn | cAddi | cAddi16sp | cSrli | cSrai |
      cAndi | cSub | cXor | cOr | cAnd | cSlli | cAdd | cMul | mul | mulh | mulhsu | mulhu | div | divu | rem | remu |
      addUw | sh1add | sh1addUw | sh2add | sh2addUw | sh3add | sh3addUw | slliUw | andn | orn | xnor | max | maxu |
      min | minu | rol | ror | rori | clmul | clmulh | clmulr | bclr | bclri | bext | bexti | binv | binvi | bset |
      bseti | addiw | slliw | srliw | sraiw | addw | subw | sllw | srlw | sraw | cAddiw | cSubw | cAddw | mulw | divw
      | divuw | remw | remuw | rolw | roriw | rorw | slti | sltiu | slt | sltu =>
    exact (retires_writeX rfl).effect h
  | fence | cNop => exact (retires_advance rfl).effect h
  | cmMva01s => exact (retires_moves rfl).effect h
  -- Loads and stores.
  | lb | lh | lw | lbu | lhu | lwu | ld | cLw | cLd | cLwsp | cLdsp | cLbu | cLhu | cLh => exact loadX_effect h rfl
  | sb | sh | sw | sd | cSw | cSd | cSwsp | cSdsp | cSb | cSh => exact storeX_effect h rfl
  -- Jumps and branches.
  | jal => exact jumpLink_effect h (effAddr_fits _ _ _)
  | jalr => exact jumpLink_effect h (fitsX_and (effAddr_fits _ _ _) _)
  | beq | bne | blt | bge | bltu | bgeu => exact branch_effect h rfl
  | cBeqz | cBnez => exact compressedBranch_effect rfl h
  | cJ => cases h; exact .jump .refl (.relative _ rfl)
  | cJal => cases h; exact .jump (.setX ra _ .refl) (.relative _ rfl)
  | cJr => cases h; exact .jump .refl (.viaRegister rfl (getX_lt _ _))
  | cJalr => cases h; exact .jump (.setX ra _ .refl) (.viaRegister rfl (getX_lt _ _))
  -- Floating point, behind the gate of FS and, where they round, of the rounding mode.
  | fmaddS | fmsubS | fnmsubS | fnmaddS | fmaddD | fmsubD | fnmsubD | fnmaddD | fmaddH | fmsubH | fnmsubH | fnmaddH |
      faddS | fsubS | fmulS | fdivS | faddD | fsubD | fmulD | fdivD | faddH | fsubH | fmulH | fdivH | fsqrtS | fsqrtD
      | fsqrtH | fcvtSW | fcvtSWu | fcvtSL | fcvtSLu | fcvtDW | fcvtDWu | fcvtDL | fcvtDLu | fcvtHW | fcvtHWu | fcvtHL
      | fcvtHLu | fcvtSD | fcvtDS | fcvtSH | fcvtHS | fcvtDH | fcvtHD =>
    exact fpRounded_effect h fun _ => retires_writeFp rfl
  | fcvtWS | fcvtWuS | fcvtWD | fcvtWuD | fcvtWH | fcvtWuH | fcvtLS | fcvtLuS | fcvtLD | fcvtLuD | fcvtLH | fcvtLuH =>
    exact fpRounded_effect h fun _ => retires_writeInt rfl
  | fminS | fmaxS | fminD | fmaxD | fminH | fmaxH => exact fpGate_retires_effect h (retires_writeFp rfl)
  | feqS | fltS | fleS | feqD | fltD | fleD | feqH | fltH | fleH => exact fpGate_retires_effect h (retires_writeInt rfl)
  | fsgnjS | fsgnjnS | fsgnjxS | fsgnjD | fsgnjnD | fsgnjxD | fsgnjH | fsgnjnH | fsgnjxH | fmvWX | fmvDX | fmvHX =>
    exact fpGate_retires_effect h (retires_writeRaw rfl)
  | fmvXW | fmvXD | fmvXH | fclassS | fclassD | fclassH => exact fpGate_retires_effect h (retires_writeX rfl)
  | flw | fld | flh | cFld | cFlw | cFldsp | cFlwsp => exact fpLoad_effect h rfl
  | fsw | fsd | fsh | cFsd | cFsw | cFsdsp | cFswsp => exact fpStore_effect h rfl
  -- Atomics.
  | lrW => exact loadReserved_effect h (.inl rfl) rfl
  | lrD => exact loadReserved_effect h (.inr rfl) rfl
  | scW | scD => exact storeConditional_effect h rfl
  | amoswapW | amoaddW | amoxorW | amoandW | amoorW | amominW | amomaxW | amominuW | amomaxuW | amoswapD | amoaddD |
      amoxorD | amoandD | amoorD | amominD | amomaxD | amominuD | amomaxuD =>
    exact amo_effect h rfl
  -- The CSR instructions and those that always take an exception.
  | csrrw rd rs1 csr => exact csrAccess_effect (show execCsrrw rd rs1 csr s = _ from h) rfl
  | csrrs rd rs1 csr => exact csrAccess_effect (show execCsrrs rd rs1 csr s = _ from h) rfl
  | csrrc rd rs1 csr => exact csrAccess_effect (show execCsrrc rd rs1 csr s = _ from h) rfl
  | csrrwi rd csr uimm => exact csrAccess_effect (show execCsrrwi rd csr uimm s = _ from h) rfl
  | csrrsi rd csr uimm => exact csrAccess_effect (show execCsrrsi rd csr uimm s = _ from h) rfl
  | csrrci rd csr uimm => exact csrAccess_effect (show execCsrrci rd csr uimm s = _ from h) rfl
  | ecall | ebreak | cEbreak => exact takeTrap_effect h
  | fcvtQH rd rs1 rm => exact stop_effect (show execFcvtQH rd rs1 rm s = _ from h)
  | fcvtHQ rd rs1 rm => exact stop_effect (show execFcvtHQ rd rs1 rm s = _ from h)
  -- The system instructions and the Zcmp and Zcmt sequences.
  | fenceI => cases h; exact .fetchFence
  | sret => exact execSret_effect h
  | mret => exact execMret_effect h
  | wfi => exact execWfi_effect h
  | sfenceVma => exact execSfenceVma_effect h
  | cmPush => exact execCmPush_effect h
  | cmPop => exact execCmPop_effect h
  | cmPopretz => exact execCmPopretz_effect h
  | cmPopret => exact execCmPopret_effect h
  | cmMvsa01 => exact execCmMvsa01_effect h
  | cmJt index => exact tableJump_effect (show execCmJt index s = _ from h) .refl rfl
  | cmJalt index => exact tableJump_effect (show execCmJalt index s = _ from h) (.setX ra _ .refl) rfl

/-! ## What a step keeps -/

/-- All a step can do on the way to a next state: what the meaning of the instruction decoded at pc does, or an exception of the
fetch or of the decoding (00_scope.md R12). -/
theorem step_effect {s t : State} (h : step s = .next t) :
    (∃ code i, s.fetch = .ok code ∧ decode s.cfg.xlen s.cfg.ext code = some i ∧ Effect i s t)
    ∨ (s.cfg.trapDelivery = .machine ∧ ∃ c v, t = s.enterTrap c v) := by
  rcases step_next h with ⟨code, i, hc, hd, he⟩ | ⟨hm, code, -, -, rfl⟩ | ⟨hm, c, v, -, rfl⟩
  · exact .inl ⟨code, i, hc, hd, exec_effect he⟩
  · exact .inr ⟨hm, _, _, rfl⟩
  · exact .inr ⟨hm, c, v, rfl⟩

/-- A write of a CSR leaves the parameters and the reservation (10_state.md R32). -/
theorem csrWrite_frame (s : State) (v : Word) (c : Csr) :
    (s.csrWrite v c).cfg = s.cfg ∧ (s.csrWrite v c).reservation = s.reservation := by
  cases c
  case mstatus =>
    unfold State.csrWrite
    dsimp only
    split <;> exact ⟨rfl, rfl⟩
  all_goals simp [State.csrWrite]

/-- What is written to mtvec and stvec has MODE 0 or 1 (10_state.md R37). -/
theorem tvecValue_mode (xlen : Xlen) (v free : Word) : (tvecValue xlen v free).getLsbD 1 = false := by
  have hbit (b : Bool) : (bitAt 0 b)[1] = false := by cases b <;> rfl
  cases xlen <;> simp [tvecValue, cut, hbit]

/-- A write of a CSR keeps MODE of mtvec and stvec at 0 or 1 (10_state.md R37). -/
theorem csrWrite_vectorInv {s : State} (hs : s.vectorInv) (v : Word) (c : Csr) : (s.csrWrite v c).vectorInv := by
  obtain ⟨hmtvec, hstvec⟩ := hs
  cases c
  case mtvec => exact ⟨tvecValue_mode _ _ _, by simpa [State.csrWrite] using hstvec⟩
  case stvec => exact ⟨by simpa [State.csrWrite] using hmtvec, tvecValue_mode _ _ _⟩
  case mstatus =>
    unfold State.csrWrite
    dsimp only
    split <;> exact ⟨hmtvec, hstvec⟩
  all_goals exact ⟨by simpa [State.csrWrite] using hmtvec, by simpa [State.csrWrite] using hstvec⟩

/-- The vector invariant depends on mtvec and stvec alone. -/
theorem vectorInv_congr {s t : State} (hs : s.vectorInv) (hm : t.mtvec = s.mtvec) (hv : t.stvec = s.stvec) : t.vectorInv := by
  unfold State.vectorInv
  rwa [hm, hv]

/-- The reservation invariant survives where the reservation is kept or lost, under the same parameters. -/
theorem reservationInv_of_kept_or_lost {s t : State} (hs : s.reservationInv) (hc : t.cfg = s.cfg)
    (hr : t.reservation = s.reservation ∨ t.reservation = none) : t.reservationInv := by
  unfold State.reservationInv
  rw [hc]
  rcases hr with hr | hr <;> rw [hr]
  · exact hs
  · rintro r ⟨⟩

section
variable {i : Instr} {s t : State}

/-- No instruction changes the parameters (00_scope.md R5 to R7). -/
theorem Effect.cfg_eq (h : Effect i s t) : t.cfg = s.cfg := by
  cases h with
  | retire hu | jump hu | reserve hu | unreserve hu => exact hu.cfg_eq
  | trap hu => exact (enterTrap_cfg _ _ _).trans hu.cfg_eq
  | writeCsr _ hu hw => exact hw.cfg_eq.trans ((csrWrite_frame _ _ _).1.trans hu.cfg_eq)
  | fetchFence | wait => rfl
  | returnFromM => exact returnFromM_cfg s
  | returnFromS => exact returnFromS_cfg s

/-- Writes keep the vector invariant. -/
theorem Written.vectorInv (hu : Written s t) (hs : s.vectorInv) : t.vectorInv := by
  obtain ⟨-, hm, hv, -⟩ := hu.frame
  exact vectorInv_congr hs hm hv

/-- Every instruction keeps MODE of mtvec and stvec at 0 or 1: only a CSR write reaches them (10_state.md R37). -/
theorem Effect.vectorInv (h : Effect i s t) (hs : s.vectorInv) : t.vectorInv := by
  cases h with
  | retire hu | jump hu | reserve hu | unreserve hu => exact hu.vectorInv hs
  | trap hu => exact vectorInv_congr (hu.vectorInv hs) (enterTrap_mtvec _ _ _) (enterTrap_stvec _ _ _)
  | writeCsr _ hu hw => exact hw.vectorInv (csrWrite_vectorInv (hu.vectorInv hs) _ _)
  | fetchFence | wait => exact hs
  | returnFromM => exact vectorInv_congr hs (returnFromM_mtvec s) (returnFromM_stvec s)
  | returnFromS => exact vectorInv_congr hs (returnFromS_mtvec s) (returnFromS_stvec s)

/-- Taking an exception keeps the reservation or loses it (20_memory.md R81). -/
theorem enterTrap_reservation (s : State) (c : Exc) (v : Word) :
    (s.enterTrap c v).reservation = s.reservation ∨ (s.enterTrap c v).reservation = none :=
  mayLoseReservation_reservation s

/-- The reservation that a load-reserved makes is naturally aligned (43_a_atomic.md R250). -/
theorem aligned_of_strict_check {cfg : Config} {kind : AccessKind} {addr : Word} {n : Nat}
    (h : checkAccess cfg kind true addr n = .ok ()) : addr.toNat % n = 0 := by
  obtain ⟨ha | ⟨hstrict, -⟩, -⟩ := checkAccess_ok.1 h
  · exact eq_of_beq ha
  · cases hstrict

/-- Every instruction keeps a held reservation well formed: only a load-reserved makes one, after its strict check of alignment
(10_state.md R40, 43_a_atomic.md R250). -/
theorem Effect.reservationInv (h : Effect i s t) (hs : s.reservationInv) : t.reservationInv := by
  have hcfg := h.cfg_eq
  cases h with
  | retire hu | jump hu => exact reservationInv_of_kept_or_lost hs hcfg (.inl hu.reservation_eq)
  | trap hu =>
    refine reservationInv_of_kept_or_lost hs hcfg ?_
    rw [← hu.reservation_eq]
    exact enterTrap_reservation _ _ _
  | writeCsr _ hu hw =>
    refine reservationInv_of_kept_or_lost hs hcfg (.inl ?_)
    exact hw.reservation_eq.trans ((csrWrite_frame _ _ _).2.trans hu.reservation_eq)
  | reserve _ hn hfits hcheck =>
    rintro r ⟨⟩
    rw [hcfg]
    exact ⟨hn, aligned_of_strict_check hcheck, hfits⟩
  | unreserve => exact reservationInv_of_kept_or_lost hs hcfg (.inr rfl)
  | fetchFence | wait => exact reservationInv_of_kept_or_lost hs hcfg (.inl rfl)
  | returnFromM | returnFromS => exact reservationInv_of_kept_or_lost hs hcfg (mayLoseReservation_reservation s)

/-- A step is an effect: of the instruction decoded, or, where the fetch or the decoding raises an exception, a trap, whose effect
is the same whatever instruction is named (here ecall). -/
theorem Effect.of_step (h : step s = .next t) : ∃ i, Effect i s t := by
  rcases step_effect h with ⟨-, i, -, -, he⟩ | ⟨hm, c, v, rfl⟩
  · exact ⟨i, he⟩
  · exact ⟨.ecall, .trap .refl hm⟩

end

/-! ## The obligations -/

/-- Settles O13: each of the three is kept by every effect of an instruction, and a step is one. -/
theorem stepKeepsParametersVectorsAndReservation : Obligations.StepKeepsParametersVectorsAndReservation := by
  refine ⟨fun s t h => ?_, fun s t hs h => ?_, fun s t hs h => ?_⟩ <;> obtain ⟨i, he⟩ := Effect.of_step h
  · exact he.cfg_eq
  · exact he.vectorInv hs
  · exact he.reservationInv hs

/-- Settles O1: where HALT does not end the run, a step is its fetch, its decoding and the meaning, and nothing around them. -/
theorem stepRunsTheDecodedInstruction : Obligations.StepRunsTheDecodedInstruction := by
  intro s code i hrunning hfetch hdecode
  rw [step_running hrunning, hfetch]
  simp only [hdecode]

end Sys2Proof.Machine
end

section
/-! Proofs about the state (10_state.md): reset, and what every step keeps of memory and of the registers. -/

namespace Sys2Proof.Machine

/-! ## Reset -/

/-- Settles O8: each of the values of R650 is written out in `State.resetWith`. -/
theorem resetLeavesTheSpecifiedState : Obligations.ResetLeavesTheSpecifiedState := by
  intro cfg
  exact ⟨rfl, rfl, rfl, rfl, rfl, rfl, rfl, fun a => rfl, rfl⟩

section
variable {cfg : Config}

/-- Valid parameters have a RESET_PC that is an instruction address of XLEN bits (70_reset_and_hazards.md R651). -/
theorem valid_resetPc (h : cfg.valid = true) : cfg.resetPc.toNat % cfg.ext.ialignBytes = 0 ∧ fitsX cfg cfg.resetPc := by
  unfold Config.valid at h
  simp only [Bool.and_eq_true, beq_iff_eq, decide_eq_true_eq] at h
  obtain ⟨⟨-, haligned⟩, hfits⟩ := h
  exact ⟨haligned, hfits⟩

/-- Zero has XLEN bits. -/
theorem fitsX_zero (cfg : Config) : fitsX cfg 0#64 := Nat.two_pow_pos _

/-- Every register after reset is zero, and pc is RESET_PC (10_state.md R44). -/
theorem resetWith_widthInv (h : cfg.valid = true) : (State.resetWith cfg).widthInv := by
  have hz := fitsX_zero cfg
  have hx (r : RegIdx) : fitsX cfg ((State.resetWith cfg).x[r.toNat]'r.isLt) := by simpa [State.resetWith] using hz
  have hf (r : RegIdx) : ((State.resetWith cfg).f[r.toNat]'r.isLt).toNat < 2 ^ cfg.ext.flen := by simp [State.resetWith]
  exact ⟨hx, rfl, hf, (valid_resetPc h).2, hz, hz, hz, hz, hz, hz, hz, hz, hz, hz, hz⟩

/-- pc is RESET_PC after reset, which is aligned, and mepc and sepc are zero (70_reset_and_hazards.md R651). -/
theorem resetWith_alignInv (h : cfg.valid = true) : (State.resetWith cfg).alignInv :=
  ⟨(valid_resetPc h).1, Nat.zero_mod _, Nat.zero_mod _⟩

end

/-- Settles O9, part by part: no byte has a value, no reservation is held, and the registers are zero but for pc. -/
theorem resetMeetsTheInvariant : Obligations.ResetMeetsTheInvariant := by
  refine ⟨fun cfg h => ⟨?_, ?_, resetWith_widthInv h, resetWith_alignInv h, ?_, ?_⟩, by decide⟩
  · exact ⟨resetWith_wf cfg, nofun⟩
  · exact ⟨.nil, nofun⟩
  · exact ⟨BitVec.getLsbD_zero, BitVec.getLsbD_zero⟩
  · exact nofun

/-! ## Memory and the fetch-coherence set -/

/-- Memory in canonical form, and the fetch-coherence set rising within the bytes that have a value (10_state.md R42, R43). -/
def State.storeInv (s : State) : Prop := s.memInv ∧ s.staleInv

/-- The two invariants depend on memory, the fetch-coherence set and XLEN alone. -/
theorem storeInv_congr {s t : State} (hs : s.storeInv) (hc : t.cfg = s.cfg) (hm : t.mem = s.mem) (hst : t.stale = s.stale) :
    t.storeInv := by
  unfold State.storeInv State.memInv State.staleInv
  rwa [hc, hm, hst]

/-- A byte that has a value has one after any write (20_memory.md R70). -/
theorem get?_set_isSome {m : Memory} {a b : Nat} {v : Byte} (h : (Memory.get? m b).isSome) :
    (Memory.get? (Memory.set m a v) b).isSome := by
  by_cases hba : b = a
  · rw [hba, get?_set_same]
    rfl
  · rwa [get?_set_ne m v hba]

/-- Storing bytes inside the address space keeps memory canonical and the fetch-coherence set within it (20_memory.md R61). -/
theorem putBytes_storeInv {s : State} {l : List (Nat × Byte)} (hs : s.storeInv) (hl : ∀ p ∈ l, p.1 < 2 ^ s.cfg.xlen.bits) :
    (s.putBytes l).storeInv := by
  induction l generalizing s with
  | nil => exact hs
  | cons p rest ih =>
    obtain ⟨a, v⟩ := p
    obtain ⟨ha, hrest⟩ := List.forall_mem_cons.1 hl
    obtain ⟨⟨hwf, hbound⟩, hsorted, hvalue⟩ := hs
    refine ih ⟨⟨set_wf hwf a v, fun c hc => ?_⟩, staleInsert_sorted hsorted a, fun b hb => ?_⟩ hrest
    · rcases mem_set hc with rfl | hc
      · exact ha
      · exact hbound c hc
    · rcases mem_staleInsert.1 hb with rfl | hb
      · rw [get?_set_same]
        rfl
      · exact get?_set_isSome (hvalue b hb)

/-- The addresses of an access lie in the address space (20_memory.md R71). -/
theorem accessAddrs_lt {xlen : Xlen} {addr : Word} {n a : Nat} (h : a ∈ accessAddrs xlen addr n) : a < 2 ^ xlen.bits := by
  obtain ⟨k, -, rfl⟩ := List.mem_map.1 h
  exact Nat.mod_lt _ (Nat.two_pow_pos _)

/-- A store keeps memory and the fetch-coherence set canonical (20_memory.md R61). -/
theorem poke_storeInv {s : State} (hs : s.storeInv) (addr : Word) (n : Nat) (v : Word) : (s.poke addr n v).storeInv :=
  putBytes_storeInv hs fun _ hp => accessAddrs_lt (List.of_mem_zip hp).1

/-- A write of a CSR leaves memory and the fetch-coherence set (10_state.md R32). -/
theorem csrWrite_memory (s : State) (v : Word) (c : Csr) : (s.csrWrite v c).mem = s.mem ∧ (s.csrWrite v c).stale = s.stale := by
  cases c
  case mstatus =>
    unfold State.csrWrite
    dsimp only
    split <;> exact ⟨rfl, rfl⟩
  all_goals simp [State.csrWrite]

section
variable {i : Instr} {s t : State}

/-- Writes keep memory and the fetch-coherence set canonical. -/
theorem Written.storeInv (hu : Written s t) (hs : s.storeInv) : t.storeInv := by
  induction hu with
  | refl => exact hs
  | setX r v _ ih => exact storeInv_congr ih (setX_cfg _ r v) (setX_mem _ r v) (setX_stale _ r v)
  | setF r v _ ih => exact storeInv_congr ih (setF_cfg _ r v) (setF_mem _ r v) (setF_stale _ r v)
  | orFlags flags _ ih => exact storeInv_congr ih (orFlags_cfg _ flags) (orFlags_mem _ flags) (orFlags_stale _ flags)
  | poke addr n v _ ih => exact poke_storeInv ih addr n v
  | drawn _ ih => exact ih

/-- A write of a CSR keeps memory and the fetch-coherence set canonical. -/
theorem csrWrite_storeInv (hs : s.storeInv) (v : Word) (c : Csr) : (s.csrWrite v c).storeInv := by
  obtain ⟨hm, hst⟩ := csrWrite_memory s v c
  exact storeInv_congr hs (csrWrite_frame s v c).1 hm hst

/-- Every instruction keeps memory and the fetch-coherence set canonical: only stores and fence.i reach them. -/
theorem Effect.storeInv (h : Effect i s t) (hs : s.storeInv) : t.storeInv := by
  cases h with
  | retire hu | jump hu | reserve hu | unreserve hu => exact hu.storeInv hs
  | trap hu => exact storeInv_congr (hu.storeInv hs) (enterTrap_cfg _ _ _) (enterTrap_mem _ _ _) (enterTrap_stale _ _ _)
  | writeCsr _ hu hw => exact hw.storeInv (csrWrite_storeInv (hu.storeInv hs) _ _)
  | fetchFence => exact ⟨hs.1, .nil, nofun⟩
  | wait => exact hs
  | returnFromM => exact storeInv_congr hs (returnFromM_cfg s) (returnFromM_mem s) (returnFromM_stale s)
  | returnFromS => exact storeInv_congr hs (returnFromS_cfg s) (returnFromS_mem s) (returnFromS_stale s)

end

/-- Settles O10: a step is an effect, and every effect keeps the two invariants together. -/
theorem stepKeepsMemoryCanonical : Obligations.StepKeepsMemoryCanonical := by
  intro s t hmem hstale h
  obtain ⟨i, he⟩ := Effect.of_step h
  exact he.storeInv ⟨hmem, hstale⟩

/-! ## The widths of the registers -/

/-- The numbers of the exceptions have XLEN bits (60_exceptions.md R600). -/
theorem fitsX_code (cfg : Config) (c : Exc) : fitsX cfg c.code := by
  unfold fitsX
  cases cfg.xlen <;> cases c <;> decide

/-- What mepc and sepc hold has XLEN bits (10_state.md R35). -/
theorem fitsX_epcValue (cfg : Config) (w : Word) : fitsX cfg (epcValue cfg w) := cut_lt _ _

/-- A little-endian value of n bytes has 8n bits (20_memory.md R62). -/
theorem bytesWord_lt (bs : List Byte) : (bytesWord bs).toNat < 2 ^ (8 * bs.length) := by
  induction bs with
  | nil => decide
  | cons b rest ih =>
    have hlen : 8 * (b :: rest).length = 8 * rest.length + 8 := rfl
    rw [bytesWord, BitVec.toNat_or, hlen]
    refine Nat.or_lt_two_pow ?_ ?_
    · rw [BitVec.toNat_shiftLeft, Nat.shiftLeft_eq, Nat.pow_add]
      exact (Nat.mod_le _ _).trans_lt (Nat.mul_lt_mul_of_pos_right ih (by decide))
    · rw [BitVec.toNat_setWidth]
      exact (Nat.mod_le _ _).trans_lt (b.isLt.trans_le (Nat.pow_le_pow_right (by decide) (Nat.le_add_left _ _)))

/-- A value read from n bytes of memory has 8n bits (20_memory.md R61, R62). -/
theorem peek_lt {s : State} {addr : Word} {n : Nat} {v : Word} (h : s.peek addr n = .ok v) : v.toNat < 2 ^ (8 * n) := by
  obtain ⟨bs, hbs, rfl⟩ := peek_ok h
  have hlen : bs.length = n := by simpa [accessAddrs] using (readBytes_ok hbs).1
  exact hlen ▸ bytesWord_lt bs

/-- XLEN is eight times the bytes of a register. -/
theorem xlen_bits_eq (xlen : Xlen) : xlen.bits = 8 * xlen.bytes := by cases xlen <;> rfl

/-- Every jump goes to a target of XLEN bits (10_state.md R25). -/
theorem JumpTarget.fits {i : Instr} {s : State} {w : Word} (h : JumpTarget i s w) : fitsX s.cfg w := by
  cases h with
  | checked _ hfits => exact hfits
  | relative => exact effAddr_fits _ _ _
  | viaRegister _ hfits => exact fitsX_and hfits _
  | entry _ hread =>
    obtain ⟨-, -, hpeek⟩ := fetchRead_ok.1 hread
    refine fitsX_and ?_ _
    unfold fitsX
    rw [xlen_bits_eq]
    exact peek_lt hpeek

/-- Writing an integer register keeps the widths: the value is cut, and x0 is never written (10_state.md R21). -/
theorem setX_widthInv {s : State} (hs : s.widthInv) (r : RegIdx) (v : Word) : (s.setX r v).widthInv := by
  unfold State.setX
  split
  · exact hs
  · next hr =>
    obtain ⟨hx, hzero, hrest⟩ := hs
    have hr0 : r.toNat ≠ 0 := fun h => hr (BitVec.eq_of_toNat_eq h)
    refine ⟨fun q => ?_, ?_, hrest⟩
    · rw [Vector.getElem_set]
      split
      · exact cut_lt _ _
      · exact hx q
    · rw [Vector.getElem_set_ne _ _ hr0]
      exact hzero

/-- Writing a floating-point register keeps the widths: the value is cut to FLEN bits (10_state.md R28). -/
theorem setF_widthInv {s : State} (hs : s.widthInv) (r : RegIdx) (v : Word) : (s.setF r v).widthInv := by
  obtain ⟨hx, hzero, hf, hrest⟩ := hs
  refine ⟨by simpa using hx, by simpa using hzero, fun q => ?_, by simpa using hrest⟩
  simp only [State.setF, dirtyFs_cfg, Vector.getElem_set]
  split
  · exact cutF_lt _ _
  · exact hf q

/-- Moving pc to an address of XLEN bits keeps the widths. -/
theorem withPc_widthInv {s : State} {w : Word} (hs : s.widthInv) (hw : fitsX s.cfg w) : ({ s with pc := w } : State).widthInv := by
  obtain ⟨hx, hzero, hf, -, hrest⟩ := hs
  exact ⟨hx, hzero, hf, hw, hrest⟩

/-- Entering the handler keeps the widths: what it saves and pc are cut to XLEN bits (60_exceptions.md R614). -/
theorem enterTrap_widthInv {s : State} (hs : s.widthInv) (c : Exc) (v : Word) : (s.enterTrap c v).widthInv := by
  obtain ⟨hx, hzero, hf, -, hmtvec, hmscratch, -, -, -, hrest⟩ := hs
  have hcfg := enterTrap_cfg s c v
  refine ⟨by simpa using hx, by simpa using hzero, by simpa using hf, ?_, by simpa using hmtvec, by simpa using hmscratch, ?_, ?_, ?_,
    by simpa using hrest⟩ <;> rw [hcfg]
  · exact cut_lt _ _
  · exact fitsX_epcValue _ _
  · exact fitsX_code _ _
  · exact cut_lt _ _

/-- Moving past an instruction keeps the widths. -/
theorem advance_widthInv {s : State} (hs : s.widthInv) (n : Nat) : (s.advance n).widthInv := withPc_widthInv hs (cut_lt _ _)

/-- A write of a CSR keeps the widths: each XLEN-bit CSR takes a value cut to XLEN bits (10_state.md R32). -/
theorem csrWrite_widthInv {s : State} (hs : s.widthInv) (v : Word) (c : Csr) : (s.csrWrite v c).widthInv := by
  have hcut (w : Word) : fitsX s.cfg (cut s.cfg.xlen w) := cut_lt _ w
  have htvec : fitsX s.cfg (tvecValue s.cfg.xlen v s.free) := cut_lt _ _
  have hepc := fitsX_epcValue s.cfg v
  cases c with
  | mstatus =>
    unfold State.csrWrite
    dsimp only
    split <;> exact hs
  | fflags | frm | fcsr | sstatus => simpa [State.csrWrite, State.widthInv] using hs
  | jvt | stvec | sscratch | sepc | scause | stval | mtvec | mscratch | mepc | mcause | mtval =>
    unfold State.widthInv at hs
    simp [State.csrWrite, State.widthInv, hs, hcut, htvec, hepc]

section
variable {i : Instr} {s t : State}

/-- Writes keep the widths. -/
theorem Written.widthInv (hu : Written s t) (hs : s.widthInv) : t.widthInv := by
  induction hu with
  | refl => exact hs
  | setX r v _ ih => exact setX_widthInv ih r v
  | setF r v _ ih => exact setF_widthInv ih r v
  | orFlags flags _ ih => simpa [State.widthInv] using ih
  | poke addr n v _ ih => simpa [State.widthInv] using ih
  | drawn _ ih => exact ih

/-- Every instruction keeps the widths. -/
theorem Effect.widthInv (h : Effect i s t) (hs : s.widthInv) : t.widthInv := by
  cases h with
  | retire hu => exact advance_widthInv (hu.widthInv hs) i.size
  | jump hu hw => exact withPc_widthInv (hu.widthInv hs) (hu.cfg_eq ▸ hw.fits)
  | trap hu => exact enterTrap_widthInv (hu.widthInv hs) _ _
  | writeCsr _ hu hw => exact advance_widthInv (hw.widthInv (csrWrite_widthInv (hu.widthInv hs) _ _)) i.size
  | reserve hu | unreserve hu => exact advance_widthInv (hu.widthInv hs) i.size
  | fetchFence => exact advance_widthInv hs i.size
  | wait => exact hs
  | returnFromM =>
    simpa [State.widthInv, State.returnFromM] using withPc_widthInv hs (fitsX_epcValue s.cfg s.mepc)
  | returnFromS =>
    simpa [State.widthInv, State.returnFromS] using withPc_widthInv hs (fitsX_epcValue s.cfg s.sepc)

end

/-- Settles O11: a step is an effect, and every effect keeps the widths. -/
theorem stepKeepsRegisterWidths : Obligations.StepKeepsRegisterWidths := by
  intro s t hs h
  obtain ⟨i, he⟩ := Effect.of_step h
  exact he.widthInv hs

end Sys2Proof.Machine
end

section
/-! Proofs about where floating-point instructions are illegal (10_state.md R34, 44_f_single.md R302). -/

namespace Sys2Proof.Machine

/-! ## Exceptions as the statements say them -/

/-- The number a cut value stands for (log 2). -/
theorem cut_toNat (xlen : Xlen) (w : Word) : (cut xlen w).toNat = w.toNat % 2 ^ xlen.bits := by
  cases xlen
  · simp only [cut, Xlen.bits, BitVec.toNat_setWidth]
    omega
  · exact (Nat.mod_eq_of_lt w.isLt).symm

/-- Clearing the k low bits of a word rounds its number down to a multiple of 2^k. -/
theorem and_not_lowBits_toNat (w : Word) (k : Nat) : (w &&& ~~~BitVec.ofNat 64 (2 ^ k - 1)).toNat = w.toNat / 2 ^ k * 2 ^ k := by
  have hshift : w &&& ~~~BitVec.ofNat 64 (2 ^ k - 1) = (w >>> k) <<< k := by
    refine BitVec.eq_of_getLsbD_eq fun i hi => ?_
    simp only [BitVec.getLsbD_and, BitVec.getLsbD_not, BitVec.getLsbD_ofNat, Nat.testBit_two_pow_sub_one,
      BitVec.getLsbD_shiftLeft, BitVec.getLsbD_ushiftRight]
    by_cases hik : i < k
    · simp [hik]
    · simp [hi, hik, Nat.add_sub_cancel' (Nat.le_of_not_lt hik)]
  rw [hshift, BitVec.toNat_shiftLeft, BitVec.toNat_ushiftRight, Nat.shiftLeft_eq, Nat.shiftRight_eq_div_pow]
  exact Nat.mod_eq_of_lt ((Nat.div_mul_le_self _ _).trans_lt w.isLt)

/-- The handler is at BASE * 4 (10_state.md R37). -/
theorem handler_toNat (s : State) : s.handler.toNat = s.mtvec.toNat % 2 ^ s.cfg.xlen.bits / 4 * 4 := by
  unfold State.handler
  rw [cut_toNat, show s.mtvec &&& ~~~3#64 = s.mtvec &&& ~~~BitVec.ofNat 64 (2 ^ 2 - 1) from rfl, and_not_lowBits_toNat]
  cases s.cfg.xlen <;> simp only [Xlen.bits] <;> omega

/-- A trap or a return that may lose the reservation changes nothing but it and the count of free values (20_memory.md R81). -/
theorem mayLoseReservation_frame (s : State) :
    s.mayLoseReservation
      = { s with reservation := s.mayLoseReservation.reservation, draws := s.mayLoseReservation.draws } := by
  unfold State.mayLoseReservation
  split
  · rfl
  · split <;> rfl

/-- Taking an exception does what `Traps` says (60_exceptions.md R613, R614). -/
theorem takeTrap_traps (s : State) (c : Exc) (v : Word) : Traps s (s.takeTrap c v) c v := by
  unfold Traps State.takeTrap
  cases s.cfg.trapDelivery with
  | environment => rfl
  | machine =>
    refine ⟨s.enterTrap c v, rfl, rfl, rfl, rfl, rfl, rfl, handler_toNat s, enterTrap_reservation s c v, fun a => ?_, ?_⟩
    · rw [enterTrap_mem]
    · unfold State.enterTrap
      rw [mayLoseReservation_frame]

/-! ## The gates of the floating-point instructions -/

section
variable {i : Instr} {s : State} {r : Result}

/-- A unit that is not on is off (10_state.md R34). -/
theorem fpOff_of_not_fpOn (h : ¬FpOn s) : s.fpOff = true := by
  unfold State.fpOff
  simpa [FpOn] using h

/-- A unit that is on is not off (10_state.md R34). -/
theorem fpOff_of_fpOn (h : FpOn s) : s.fpOff = false := by
  unfold State.fpOff
  simpa [FpOn] using h

/-- A floating-point instruction is illegal while the unit is off (10_state.md R34). -/
theorem fpGate_traps {body : Result} (hoff : s.fpOff = true) (hr : r = s.fpGate i body) :
    Traps s r .illegalInstruction i.bits := by
  rw [hr, State.fpGate, if_pos hoff]
  exact takeTrap_traps s _ _

/-- An instruction that rounds is illegal when no rounding mode is named, with the unit on or off (44_f_single.md R302). -/
theorem fpRounded_traps {rm : BitVec 3} {body : RoundingMode → Result} (hrm : s.effectiveRm rm = none)
    (hr : r = s.fpRounded i rm body) : Traps s r .illegalInstruction i.bits := by
  rw [hr, State.fpRounded, State.fpGate, hrm, ite_self]
  exact takeTrap_traps s _ _

/-- The encodings of rm, and those of frm under rm 111, that name no rounding mode (44_f_single.md R302). -/
theorem effectiveRm_none {rm : BitVec 3} (h : rm = 0b101#3 ∨ rm = 0b110#3 ∨ (rm = 0b111#3 ∧ 5 ≤ s.frm.toNat)) :
    s.effectiveRm rm = none := by
  rcases h with rfl | rfl | ⟨rfl, hfrm⟩
  · rfl
  · rfl
  · have hcodes : ∀ c : BitVec 3, 5 ≤ c.toNat → roundingOf c = none := by decide
    exact hcodes s.frm hfrm

/-- Every instruction of F, D or Zfh stands behind the gate of FS, or is always illegal (10_state.md R34). -/
theorem exec_traps_of_fpOff (hi : i.availability.needs.any (fun u => u == .F || u == .D || u == .Zfh) = true)
    (hoff : s.fpOff = true) : Traps s (exec i s) .illegalInstruction i.bits := by
  cases i with
  | fmaddS | fmsubS | fnmsubS | fnmaddS | fmaddD | fmsubD | fnmsubD | fnmaddD | fmaddH | fmsubH | fnmsubH | fnmaddH |
      faddS | fsubS | fmulS | fdivS | faddD | fsubD | fmulD | fdivD | faddH | fsubH | fmulH | fdivH | fsqrtS | fsqrtD
      | fsqrtH | fcvtSW | fcvtSWu | fcvtSL | fcvtSLu | fcvtDW | fcvtDWu | fcvtDL | fcvtDLu | fcvtHW | fcvtHWu | fcvtHL
      | fcvtHLu | fcvtSD | fcvtDS | fcvtSH | fcvtHS | fcvtDH | fcvtHD | fcvtWS | fcvtWuS | fcvtWD | fcvtWuD | fcvtWH
      | fcvtWuH | fcvtLS | fcvtLuS | fcvtLD | fcvtLuD | fcvtLH | fcvtLuH | fminS | fmaxS | fminD | fmaxD | fminH | fmaxH
      | feqS | fltS | fleS | feqD | fltD | fleD | feqH | fltH | fleH | fsgnjS | fsgnjnS | fsgnjxS | fsgnjD | fsgnjnD
      | fsgnjxD | fsgnjH | fsgnjnH | fsgnjxH | fmvWX | fmvDX | fmvHX | fmvXW | fmvXD | fmvXH | fclassS | fclassD | fclassH
      | flw | fld | flh | cFld | cFlw | cFldsp | cFlwsp | fsw | fsd | fsh | cFsd | cFsw | cFsdsp | cFswsp =>
    exact fpGate_traps hoff rfl
  | fcvtQH | fcvtHQ => exact takeTrap_traps s _ _
  | _ => nomatch hi

end

/-- Settles O46: the gate of FS, the gate of the rounding mode, and the two conversions that are always illegal. -/
theorem floatInstructionsIllegal : Obligations.FloatInstructionsIllegal := by
  refine ⟨fun i s hi hoff => exec_traps_of_fpOff hi (fpOff_of_not_fpOn hoff), fun rm s hcodes => ?_, fun rd rs1 rm s =>
    ⟨takeTrap_traps s _ _, takeTrap_traps s _ _⟩⟩
  have hrm := effectiveRm_none hcodes
  refine ⟨fun row hrow rd rs1 rs2 => ?_, fun row hrow rd rs1 => ?_, fun row hrow rd rs1 rs2 rs3 => ?_⟩ <;>
    fin_cases hrow <;> exact fpRounded_traps hrm rfl

end Sys2Proof.Machine
end

section
/-! Proofs about reads of bytes that nothing has given a value (10_state.md R45). -/

namespace Sys2Proof.Machine

/-! ## The words and addresses of the statements -/

/-- A word is cut to the number of its low XLEN bits (log 2). -/
theorem wrap_natCast (s : State) (n : Nat) : wrap s (n : Int) = cut s.cfg.xlen (BitVec.ofNat 64 n) := by
  apply BitVec.eq_of_toNat_eq
  have hcast : ((n : Int) % 2 ^ s.cfg.xlen.bits).toNat = n % 2 ^ s.cfg.xlen.bits := by exact_mod_cast Int.toNat_natCast _
  rw [cut_toNat, wrap, hcast, BitVec.toNat_ofNat, BitVec.toNat_ofNat]
  cases s.cfg.xlen <;> simp only [Xlen.bits]
  omega

/-- Addresses are computed modulo 2^XLEN, in whatever order (20_memory.md R71). -/
theorem effAddr_effAddr (xlen : Xlen) (a b c : Word) : effAddr xlen (effAddr xlen a b) c = effAddr xlen a (b + c) := by
  apply BitVec.eq_of_toNat_eq
  simp only [effAddr, cut_toNat, BitVec.toNat_add]
  cases xlen <;> simp only [Xlen.bits] <;> omega

/-- An address from a number is the cut sum. -/
theorem wrap_add_ofNat (s : State) (w : Word) (n : Nat) : wrap s ((w.toNat : Int) + n) = effAddr s.xlen w (BitVec.ofNat 64 n) := by
  rw [← Nat.cast_add, wrap_natCast, effAddr, BitVec.ofNat_add, BitVec.ofNat_toNat, BitVec.setWidth_eq]
  rfl

/-- The addresses of an access are those of its bytes (20_memory.md R71). -/
theorem accessAddrs_eq (s : State) (addr : Word) (n : Nat) :
    accessAddrs s.cfg.xlen addr n = (List.range n).map (byteAddr s addr) := rfl

/-- MEM_MAP permits an access exactly when each of its bytes lies in a region with the permission (20_memory.md R69). -/
theorem permitted_iff {s : State} {kind : AccessKind} {addr : Word} {n : Nat} :
    permitted s.cfg kind addr n = true ↔ Mapped s kind addr n := by
  simp [permitted, accessAddrs_eq]

/-- An access that is aligned, or emulated, and mapped passes its checks (60_exceptions.md R611). -/
theorem checkAccess_of_mapped {s : State} {kind : AccessKind} {addr : Word} {n : Nat} (ha : AlignedOrEmulated s addr n)
    (hm : Mapped s kind addr n) : checkAccess s.cfg kind false addr n = .ok () :=
  checkAccess_ok.2 ⟨ha.imp (fun h => beq_iff_eq.2 h) (fun h => ⟨rfl, h⟩), permitted_iff.2 hm⟩

/-- An atomic access that is aligned and mapped passes its checks (43_a_atomic.md R250). -/
theorem checkAccess_strict_of_mapped {s : State} {kind : AccessKind} {addr : Word} {n : Nat} (ha : addr.toNat % n = 0)
    (hm : Mapped s kind addr n) : checkAccess s.cfg kind true addr n = .ok () :=
  checkAccess_ok.2 ⟨.inl (beq_iff_eq.2 ha), permitted_iff.2 hm⟩

/-! ## What a read of memory gives -/

/-- Reading the bytes of a list of addresses that all have one (20_memory.md R61). -/
theorem readBytes_map {m : Memory} {addr : Nat → Nat} {b : Nat → Byte} {l : List Nat}
    (h : ∀ k ∈ l, Memory.get? m (addr k) = some (b k)) : readBytes m (l.map addr) = .ok (l.map b) := by
  induction l with
  | nil => rfl
  | cons k rest ih =>
    obtain ⟨hk, hrest⟩ := List.forall_mem_cons.1 h
    simp [readBytes, hk, ih hrest]

/-- A byte below the bytes of a number (20_memory.md R62). -/
theorem shiftLeft_or_byte (v : Nat) :
    (BitVec.ofNat 64 (v / 256) <<< 8) ||| (BitVec.ofNat 8 v).setWidth 64 = BitVec.ofNat 64 v := by
  refine BitVec.eq_of_getLsbD_eq fun i hi => ?_
  simp only [BitVec.getLsbD_or, BitVec.getLsbD_shiftLeft, BitVec.getLsbD_setWidth, BitVec.getLsbD_ofNat,
    show v / 256 = v / 2 ^ 8 from rfl, Nat.testBit_div_two_pow]
  by_cases hi8 : i < 8
  · simp [hi, hi8]
  · simp [hi, hi8, Nat.sub_add_cancel (Nat.le_of_not_lt hi8), (Nat.sub_le i 8).trans_lt hi]

/-- The bytes of a number below 256^n, the lowest first, make the number (20_memory.md R62). -/
theorem bytesWord_digits (n v : Nat) (h : v < 256 ^ n) :
    bytesWord ((List.range n).map (fun k => BitVec.ofNat 8 (v / 256 ^ k))) = BitVec.ofNat 64 v := by
  induction n generalizing v with
  | zero => rw [Nat.lt_one_iff.1 h]; rfl
  | succ n ih =>
    have hrest := ih (v / 256) (Nat.div_lt_of_lt_mul (by rwa [Nat.pow_succ'] at h))
    have hdigits : (fun k => BitVec.ofNat 8 (v / 256 ^ k)) ∘ Nat.succ = fun k => BitVec.ofNat 8 (v / 256 / 256 ^ k) := by
      funext k
      rw [Function.comp_apply, Nat.pow_succ', ← Nat.div_div_eq_div_mul]
    rw [List.range_succ_eq_map, List.map_cons, List.map_map, hdigits, bytesWord, hrest, Nat.pow_zero, Nat.div_one,
      shiftLeft_or_byte]

/-- A read of bytes that hold a number gives the number (20_memory.md R61, R62). -/
theorem peek_of_holds {s : State} {addr : Word} {n v : Nat} (h : Holds s addr n v) :
    s.peek addr n = .ok (BitVec.ofNat 64 v) := by
  obtain ⟨hlt, hbytes⟩ := h
  have hread : readBytes s.mem (accessAddrs s.cfg.xlen addr n) = _ :=
    readBytes_map (fun k hk => hbytes k (List.mem_range.1 hk))
  rw [State.peek, hread, ← bytesWord_digits n v hlt]

/-- A read stops at the first byte that has no value (10_state.md R45). -/
theorem peek_of_firstByte {s : State} {addr : Word} {n k : Nat} (h : FirstByte s addr n (NoValue s) k) :
    s.peek addr n = .error (.fault (.readOfUnspecified (byteAddr s addr k))) := by
  obtain ⟨hk, hnone, hbefore⟩ := h
  obtain ⟨m, rfl⟩ := Nat.exists_eq_add_of_lt hk
  have hread : readBytes s.mem (accessAddrs s.cfg.xlen addr (k + m + 1))
      = .error (.fault (.readOfUnspecified (byteAddr s addr k))) := by
    rw [accessAddrs_eq, Nat.add_assoc, List.range_add, List.range_succ_eq_map, List.map_append, List.map_cons, List.map_cons]
    refine readBytes_first (fun b hb => ?_) hnone
    obtain ⟨j, hj, rfl⟩ := List.mem_map.1 hb
    exact hbefore j (List.mem_range.1 hj)
  rw [State.peek, hread]

/-- A load that passes its checks is the read (20_memory.md R61). -/
theorem load_eq_peek {s : State} {addr : Word} {n : Nat} (ha : AlignedOrEmulated s addr n) (hm : Mapped s .load addr n) :
    s.load addr n = s.peek addr n := by
  rw [State.load, checkAccess_of_mapped ha hm]

/-- A fetch of bytes that may be fetched and are not stale is the read (20_memory.md R69, R79). -/
theorem fetchRead_eq_peek {s : State} {addr : Word} {n : Nat} (hm : Mapped s .execute addr n)
    (hfresh : ∀ k < n, byteAddr s addr k ∉ s.stale) : s.fetchRead addr n = s.peek addr n := by
  have hnone : s.firstStale (accessAddrs s.cfg.xlen addr n) = none := by
    simpa [State.firstStale, accessAddrs_eq] using hfresh
  simp [State.fetchRead, permitted_iff.2 hm, hnone]

/-- A parcel of a number has its two low bits set exactly when the number is 3 modulo 4 (30_encoding.md R101). -/
theorem isLong_ofNat (n : Nat) : isLong ((BitVec.ofNat 64 n).setWidth 16) = decide (n % 4 = 3) := by
  have hlow : ((BitVec.ofNat 64 n).setWidth 16).extractLsb' 0 2 = BitVec.ofNat 2 n := by
    apply BitVec.eq_of_toNat_eq
    simp only [BitVec.extractLsb'_toNat, BitVec.toNat_setWidth, BitVec.toNat_ofNat, Nat.shiftRight_zero]
    omega
  rw [isLong, hlow, Bool.eq_iff_iff, beq_iff_eq, decide_eq_true_iff, ← BitVec.toNat_inj, BitVec.toNat_ofNat]
  rfl

/-! ## Where each read stops -/

section
variable {s : State} {rd : RegIdx} {addr : Word} {n w k : Nat}

/-- A load into an integer register, rd = x0 among them (10_state.md R45, log 4). -/
theorem loadX_stops {ext : Word → Word} (ha : AlignedOrEmulated s addr w) (hm : Mapped s .load addr w)
    (hk : FirstByte s addr w (NoValue s) k) :
    s.loadX n rd addr w ext = .fault (.readOfUnspecified (byteAddr s addr k)) := by
  rw [State.loadX, load_eq_peek ha hm, peek_of_firstByte hk]
  rfl

/-- A load into a floating-point register, with the unit on (44_f_single.md R336). -/
theorem fpLoad_stops {i : Instr} {fmt : FloatFormat} (hon : FpOn s) (hw : fmt.width / 8 = w) (ha : AlignedOrEmulated s addr w)
    (hm : Mapped s .load addr w) (hk : FirstByte s addr w (NoValue s) k) :
    s.fpLoad i n fmt rd addr = .fault (.readOfUnspecified (byteAddr s addr k)) := by
  rw [State.fpLoad, State.fpGate, fpOff_of_fpOn hon, hw, load_eq_peek ha hm, peek_of_firstByte hk]
  rfl

/-- A load-reserved (43_a_atomic.md R250). -/
theorem loadReserved_stops (ha : addr.toNat % w = 0) (hm : Mapped s .load addr w) (hk : FirstByte s addr w (NoValue s) k) :
    s.loadReserved rd addr w = .fault (.readOfUnspecified (byteAddr s addr k)) := by
  rw [State.loadReserved, checkAccess_strict_of_mapped ha hm, peek_of_firstByte hk]
  rfl

/-- An atomic operation, which reads before it writes (43_a_atomic.md R252). -/
theorem amo_stops {op : Word → Word} (ha : addr.toNat % w = 0) (hm : Mapped s .atomic addr w)
    (hk : FirstByte s addr w (NoValue s) k) : s.amo rd addr w op = .fault (.readOfUnspecified (byteAddr s addr k)) := by
  rw [State.amo, checkAccess_strict_of_mapped ha hm, peek_of_firstByte hk]
  rfl

/-- The table entry of an index is at BASE plus XLEN/8 bytes for each one before it (49_zc_code_size.md R555). -/
theorem tableEntry_eq (s : State) (index : BitVec 8) :
    effAddr s.xlen (s.jvt &&& ~~~0x3f#64) (BitVec.ofNat 64 (index.toNat * s.xlen.bytes))
      = wrap s (s.jvt.toNat / 64 * 64 + index.toNat * s.cfg.xlen.bytes) := by
  have hbase : (s.jvt &&& ~~~0x3f#64).toNat = s.jvt.toNat / 64 * 64 := and_not_lowBits_toNat s.jvt 6
  have h := wrap_add_ofNat s (s.jvt &&& ~~~0x3f#64) (index.toNat * s.cfg.xlen.bytes)
  rw [hbase] at h
  exact_mod_cast h.symm

/-- A read of the jump table (49_zc_code_size.md R555). -/
theorem tableJump_stops {i : Instr} {index : BitVec 8} {link : State → State} (hmode : s.jvt.toNat % 64 = 0)
    (hentry : addr = wrap s (s.jvt.toNat / 64 * 64 + index.toNat * s.cfg.xlen.bytes))
    (hm : Mapped s .execute addr s.cfg.xlen.bytes) (hfresh : ∀ j < s.cfg.xlen.bytes, byteAddr s addr j ∉ s.stale)
    (hk : FirstByte s addr s.cfg.xlen.bytes (NoValue s) k) :
    s.tableJump i index link = .fault (.readOfUnspecified (byteAddr s addr k)) := by
  have hdefined : s.jvt.extractLsb' 0 6 = 0#6 := by
    apply BitVec.eq_of_toNat_eq
    simpa using hmode
  have hread := (fetchRead_eq_peek hm hfresh).trans (peek_of_firstByte hk)
  rw [hentry, ← tableEntry_eq, State.xlen] at hread ⊢
  rw [State.tableJump, if_neg (not_not.2 hdefined), State.xlen, hread]
  rfl

/-- A fetch that cannot read its second parcel stops as the read of it does (30_encoding.md R101). -/
theorem fetch_of_second_error {lo : Word} {e : Stop} (hfirst : s.fetchRead s.pc 2 = .ok lo)
    (hlong : isLong (lo.setWidth 16) = true) (hsecond : s.fetchRead (effAddr s.cfg.xlen s.pc 2#64) 2 = .error e) :
    s.fetch = .error e := by
  rw [State.fetch, hfirst]
  simp only [hlong, if_true, hsecond]

/-- A fetch that ends the run ends the step (60_exceptions.md R628). -/
theorem step_stops {f : Fault} (hrunning : NotHalting s) (hfetch : s.fetch = .error (.fault f)) : step s = .fault f := by
  rw [step_running hrunning, hfetch]
  rfl

end

/-! ## The loads -/

/-- An instruction is a load of w bytes at an address, into an integer register or, behind the gate of FS, into a floating-point
register; the flag says which. -/
inductive IsLoad (s : State) (i : Instr) (addr : Word) (w : Nat) : Bool → Prop where
  | integer {n : Nat} {rd : RegIdx} {ext : Word → Word} (h : exec i s = s.loadX n rd addr w ext) : IsLoad s i addr w false
  | float {n : Nat} {rd : RegIdx} {fmt : FloatFormat} (h : exec i s = s.fpLoad i n fmt rd addr) (hw : fmt.width / 8 = w) :
      IsLoad s i addr w true

/-- A load stops at the first byte that has no value (10_state.md R45). -/
theorem IsLoad.stops {s : State} {i : Instr} {addr : Word} {w k : Nat} {fp : Bool} (h : IsLoad s i addr w fp)
    (hon : fp = true → FpOn s) (ha : AlignedOrEmulated s addr w) (hm : Mapped s .load addr w)
    (hk : FirstByte s addr w (NoValue s) k) : exec i s = .fault (.readOfUnspecified (byteAddr s addr k)) := by
  cases h with
  | integer h => rw [h, loadX_stops ha hm hk]
  | float h hw => rw [h, fpLoad_stops (hon rfl) hw ha hm hk]

/-! ## The pops -/

/-- Loading does not read the integer registers. -/
theorem load_setX (s : State) (r : RegIdx) (v : Word) (addr : Word) (n : Nat) : (s.setX r v).load addr n = s.load addr n := by
  simp [State.load, State.peek]

/-- The place of the next slot depends on XLEN alone. -/
theorem slotBelow_setX (s : State) (r : RegIdx) (v : Word) : slotBelow (s.setX r v) = slotBelow s := by
  funext addr
  simp [slotBelow, State.xlen]

/-- The loads of a pop stop at the first that fails (49_zc_code_size.md R553). -/
theorem popAll_stops {l : List RegIdx} {addr : Word} {s : State} {e : Stop} {j : Nat} (hj : j < l.length)
    (hbefore : ∀ i < j, ∃ v, s.load ((slotBelow s)^[i] addr) s.xlen.bytes = .ok v)
    (hstop : s.load ((slotBelow s)^[j] addr) s.xlen.bytes = .error e) : (popAll l addr s).2 = some e := by
  induction l generalizing addr s j with
  | nil => nomatch hj
  | cons r rest ih =>
    cases j with
    | zero =>
      have hfirst : s.load addr s.xlen.bytes = .error e := hstop
      rw [popAll, hfirst]
    | succ j =>
      obtain ⟨v, hv⟩ := hbefore 0 (Nat.succ_pos j)
      have hfirst : s.load addr s.xlen.bytes = .ok v := hv
      have hxlen : (s.setX r v).xlen = s.xlen := congrArg Config.xlen (setX_cfg s r v)
      rw [popAll, hfirst]
      refine ih (Nat.lt_of_succ_lt_succ hj) (fun i hi => ?_) ?_ <;> rw [slotBelow_setX, load_setX, hxlen]
      · exact hbefore (i + 1) (Nat.succ_lt_succ hi)
      · exact hstop

/-- The slot below a slot is the next one (49_zc_code_size.md R553). -/
theorem slotBelow_iterate (s : State) (base : Word) (j : Nat) : (slotBelow s)^[j] (slot s base 0) = slot s base j := by
  induction j with
  | zero => rfl
  | succ j ih =>
    rw [Function.iterate_succ_apply', ih, slotBelow, slot, slot, effAddr_effAddr, ← neg_add, State.xlen, ← BitVec.ofNat_add]
    rfl

/-- The table of the stack adjustments is the rule for them (49_zc_code_size.md R552). -/
theorem stackAdj_eq_adjustment (xlen : Xlen) (rlist : BitVec 4) (spimm : BitVec 2) (h : 4 ≤ rlist.toNat) :
    stackAdj xlen rlist spimm = BitVec.ofNat 64 (adjustment xlen rlist spimm) := by
  revert rlist spimm
  cases xlen <;> decide

/-- A list of registers has as many in the order of the accesses as in rising order (49_zc_code_size.md R552, R553). -/
theorem regList_length (rlist : BitVec 4) (h : 4 ≤ rlist.toNat) : (regList rlist).length = (listed rlist).length := by
  revert rlist
  decide

/-- The slot that a pop reads first is right below the new stack pointer (49_zc_code_size.md R553, R569). -/
theorem topSlot_eq (s : State) {rlist : BitVec 4} (spimm : BitVec 2) (h : 4 ≤ rlist.toNat) :
    topSlot s rlist spimm = slot s (wrap s (uval s 2#5 + adjustment s.cfg.xlen rlist spimm)) 0 := by
  unfold topSlot slot uval
  rw [wrap_add_ofNat, State.xlen, effAddr_effAddr, stackAdj_eq_adjustment _ _ _ h, BitVec.sub_eq_add_neg, Nat.zero_add, Nat.mul_one]
  rfl

/-- A load of a pop stops at the first byte that has no value, after the loads before it (49_zc_code_size.md R553). -/
theorem pop_stops {rlist : BitVec 4} {spimm : BitVec 2} {s : State} {v : Nat → Nat} {j k : Nat} (hlist : 4 ≤ rlist.toNat)
    {addr : Nat → Word} (haddr : addr = slot s (wrap s (uval s 2#5 + adjustment s.cfg.xlen rlist spimm)))
    (hj : j < (listed rlist).length)
    (hbefore : ∀ i < j, AlignedOrEmulated s (addr i) s.cfg.xlen.bytes ∧ Mapped s .load (addr i) s.cfg.xlen.bytes
      ∧ Holds s (addr i) s.cfg.xlen.bytes (v i))
    (ha : AlignedOrEmulated s (addr j) s.cfg.xlen.bytes) (hm : Mapped s .load (addr j) s.cfg.xlen.bytes)
    (hk : FirstByte s (addr j) s.cfg.xlen.bytes (NoValue s) k) :
    (popAll (regList rlist) (topSlot s rlist spimm) s).2 = some (.fault (.readOfUnspecified (byteAddr s (addr j) k))) := by
  have hslot (i : Nat) : (slotBelow s)^[i] (topSlot s rlist spimm) = addr i := by
    rw [topSlot_eq s spimm hlist, slotBelow_iterate, haddr]
  refine popAll_stops (regList_length rlist hlist ▸ hj) (fun i hi => ?_) ?_ <;> rw [hslot, State.xlen]
  · obtain ⟨hai, hmi, hvi⟩ := hbefore i hi
    exact ⟨_, (load_eq_peek hai hmi).trans (peek_of_holds hvi)⟩
  · exact (load_eq_peek ha hm).trans (peek_of_firstByte hk)

/-- Settles O60: each kind of read is the read of memory once its checks pass. -/
theorem readsOfBytesWithoutAValueStop : Obligations.ReadsOfBytesWithoutAValueStop := by
  refine ⟨?_, ?_, ?_, ?_, ?_, ?_, ?_⟩
  · intro rd rs1 cr1 cr2 imm u6 u5 u2 u1 s k row hrow
    have hload : IsLoad s row.1 row.2.1 row.2.2.1 row.2.2.2 := by
      fin_cases hrow <;> constructor <;> rfl
    exact hload.stops
  · intro row hrow rd rs1 aq rl s k addr ha hm hk
    fin_cases hrow <;> exact loadReserved_stops ha hm hk
  · intro row hrow rd rs1 rs2 aq rl s k addr ha hm hk
    fin_cases hrow <;> exact amo_stops ha hm hk
  · intro rlist spimm s v k hlist w addr j hj hbefore ha hm hk row hrow
    have hpop := pop_stops hlist (addr := addr) rfl hj hbefore ha hm hk
    have hlegal : ¬rlist.toNat < 4 := Nat.not_lt.2 hlist
    fin_cases hrow <;> exact (if_neg hlegal).trans (finishSequence_fault.2 ⟨_, hpop, rfl⟩)
  · intro s k hrunning hm hfresh hk
    refine step_stops hrunning ?_
    rw [State.fetch, fetchRead_eq_peek hm hfresh, peek_of_firstByte hk]
  · intro s lo k next hrunning hm hfresh hlo hlong hm' hfresh' hk
    have hfirst := (fetchRead_eq_peek hm hfresh).trans (peek_of_holds hlo)
    have hsecond := (fetchRead_eq_peek hm' hfresh').trans (peek_of_firstByte hk)
    exact step_stops hrunning (fetch_of_second_error hfirst ((isLong_ofNat lo).trans (decide_eq_true hlong)) hsecond)
  · intro s index k w entry hmode hm hfresh hk
    show execCmJt index s = _ ∧ execCmJalt index s = _
    exact ⟨tableJump_stops hmode rfl hm hfresh hk, tableJump_stops hmode rfl hm hfresh hk⟩

end Sys2Proof.Machine
end

section
/-! Proofs about instruction addresses (20_memory.md R66): every step keeps pc, mepc and sepc multiples of IALIGN/8. -/

namespace Sys2Proof

/-! ## The lengths of instructions -/

/-- What the decoder answers is a well-formed instruction of the machine (30_encoding.md R122). -/
theorem decode_wf {xlen : Xlen} {ext : Ext} {code : Code} {i : Instr} (h : decode xlen ext code = some i) :
    i.wf xlen ext = true := by
  cases code with
  | half w =>
    obtain ⟨-, -, -, -, hwf⟩ := decode16_some h
    exact hwf
  | full w =>
    obtain ⟨-, -, -, -, hwf⟩ := decode32_some h
    exact hwf

/-- An instruction is 2 or 4 bytes long (30_encoding.md R100). -/
theorem size_eq_two_or_four (i : Instr) : i.size = 2 ∨ i.size = 4 := by
  unfold Instr.size
  cases i.encode with
  | half w => exact .inl rfl
  | full w => exact .inr rfl

/-- Every instruction of 2 bytes needs C (46_c_compressed.md R390, 49_zc_code_size.md R550). -/
theorem needs_c_of_size_two {i : Instr} (h : i.size = 2) : .C ∈ i.availability.needs := by
  cases i with
  | cAddi4spn | cLw | cSw | cNop | cAddi | cLi | cAddi16sp | cLui | cSrli | cSrai | cAndi | cSub | cXor | cOr | cAnd | cJ
      | cBeqz | cBnez | cSlli | cLwsp | cJr | cMv | cEbreak | cJalr | cAdd | cSwsp | cFld | cFsd | cFldsp | cFsdsp | cFlw
      | cFsw | cFlwsp | cFswsp | cLd | cSd | cAddiw | cSubw | cAddw | cLdsp | cSdsp | cJal | cLbu | cLhu | cLh | cSb | cSh
      | cZextB | cNot | cSextB | cZextH | cSextH | cZextW | cMul | cmPush | cmPop | cmPopretz | cmPopret | cmMvsa01
      | cmMva01s | cmJt | cmJalt =>
    exact List.mem_cons_self
  | _ => nomatch h

/-- A well-formed instruction of 2 bytes is on a machine with C. -/
theorem c_of_size_two {xlen : Xlen} {ext : Ext} {i : Instr} (hwf : i.wf xlen ext = true) (h : i.size = 2) : ext.c = true := by
  simp only [Instr.wf, Availability.on, Bool.and_eq_true] at hwf
  obtain ⟨⟨⟨⟨-, hneeds⟩, -⟩, -⟩, -⟩ := hwf
  exact List.all_eq_true.1 hneeds .C (needs_c_of_size_two h)

/-- With C, IALIGN is 16 bits (00_scope.md R7). -/
theorem ialignBytes_of_c {ext : Ext} (h : ext.c = true) : ext.ialignBytes = 2 := if_pos h

/-- IALIGN/8 is 2 or 4 (00_scope.md R7). -/
theorem ialignBytes_dvd_four (ext : Ext) : ext.ialignBytes ∣ 4 := by
  unfold Ext.ialignBytes
  split <;> decide

/-- IALIGN/8 divides the size of the address space. -/
theorem ialignBytes_dvd_two_pow (ext : Ext) (xlen : Xlen) : ext.ialignBytes ∣ 2 ^ xlen.bits :=
  (ialignBytes_dvd_four ext).trans (by cases xlen <;> decide)

/-- The length of an instruction is a multiple of IALIGN/8 (20_memory.md R66). -/
theorem ialignBytes_dvd_size {ext : Ext} {i : Instr} (h : i.size = 2 → ext.c = true) : ext.ialignBytes ∣ i.size := by
  rcases size_eq_two_or_four i with h2 | h4
  · rw [h2, ialignBytes_of_c (h h2)]
  · rw [h4]
    exact ialignBytes_dvd_four ext

end Sys2Proof

namespace Sys2Proof.Machine

/-! ## Instruction addresses -/

/-- The sum of two multiples of IALIGN/8, modulo 2^XLEN, is one (20_memory.md R71). -/
theorem effAddr_aligned {cfg : Config} {a b : Word} (ha : a.toNat % cfg.ext.ialignBytes = 0)
    (hb : cfg.ext.ialignBytes ∣ b.toNat) : (effAddr cfg.xlen a b).toNat % cfg.ext.ialignBytes = 0 := by
  have hword : cfg.ext.ialignBytes ∣ 2 ^ 64 := ialignBytes_dvd_two_pow cfg.ext .rv64
  rw [effAddr, cut_toNat, BitVec.toNat_add, Nat.mod_mod_of_dvd _ (ialignBytes_dvd_two_pow cfg.ext cfg.xlen),
    Nat.mod_mod_of_dvd _ hword]
  exact Nat.mod_eq_zero_of_dvd ((Nat.dvd_of_mod_eq_zero ha).add hb)

/-- Moving past an instruction keeps pc aligned (10_state.md R26). -/
theorem advance_pc_aligned {s : State} {n : Nat} (hpc : s.pc.toNat % s.cfg.ext.ialignBytes = 0)
    (hn : s.cfg.ext.ialignBytes ∣ n) : (s.advance n).pc.toNat % s.cfg.ext.ialignBytes = 0 := by
  refine effAddr_aligned hpc ?_
  rw [BitVec.toNat_ofNat]
  exact (Nat.dvd_mod_iff (ialignBytes_dvd_two_pow s.cfg.ext .rv64)).2 hn

/-- A word with bit 0 cleared is even. -/
theorem even_of_clear_bit_zero (w : Word) : (w &&& ~~~1#64).toNat % 2 = 0 := by
  rw [show w &&& ~~~1#64 = w &&& ~~~BitVec.ofNat 64 (2 ^ 1 - 1) from rfl, and_not_lowBits_toNat]
  exact Nat.mul_mod_left _ _

/-- What mepc and sepc hold is an instruction address (10_state.md R35). -/
theorem epcValue_aligned (cfg : Config) (w : Word) : (epcValue cfg w).toNat % cfg.ext.ialignBytes = 0 := by
  rw [epcValue, cut_toNat, Nat.mod_mod_of_dvd _ (ialignBytes_dvd_two_pow cfg.ext cfg.xlen), Ext.ialignBytes]
  split
  · exact even_of_clear_bit_zero w
  · rw [show w &&& ~~~3#64 = w &&& ~~~BitVec.ofNat 64 (2 ^ 2 - 1) from rfl, and_not_lowBits_toNat]
    exact Nat.mul_mod_left _ _

/-- The handler is at an instruction address (10_state.md R37). -/
theorem handler_aligned (s : State) : s.handler.toNat % s.cfg.ext.ialignBytes = 0 := by
  rw [handler_toNat]
  exact Nat.mod_eq_zero_of_dvd ((ialignBytes_dvd_four s.cfg.ext).trans (Nat.dvd_mul_left _ _))

/-- The offset of a compressed jump is even: its encoding leaves out bit 0 (46_c_compressed.md R392). -/
theorem sext_append_zero_even (xlen : Xlen) {m : Nat} (offset : BitVec m) :
    2 ∣ (sext xlen (offset ++ 0#1)).toNat := by
  have hlow : ((offset ++ 0#1).signExtend 64).toNat % 2 = 0 := by
    have hbit : ((offset ++ 0#1).signExtend 64).getLsbD 0 = false := by
      rw [BitVec.getLsbD_signExtend, BitVec.getLsbD_append]
      simp
    simpa [BitVec.getLsbD, Nat.testBit_zero] using hbit
  rw [sext, cut_toNat]
  exact (Nat.dvd_mod_iff (by cases xlen <;> decide)).2 (Nat.dvd_of_mod_eq_zero hlow)

/-- Every jump goes to an instruction address: one of 4 bytes checks its target, one of 2 bytes exists with C only, where every even
address is one (60_exceptions.md R601, log 13). -/
theorem JumpTarget.aligned {i : Instr} {s : State} {w : Word} (h : JumpTarget i s w) (hsize : i.size = 2 → s.cfg.ext.c = true)
    (hpc : s.pc.toNat % s.cfg.ext.ialignBytes = 0) : w.toNat % s.cfg.ext.ialignBytes = 0 := by
  cases h with
  | checked haligned => exact haligned
  | relative offset h2 =>
    refine effAddr_aligned hpc ?_
    rw [ialignBytes_of_c (hsize h2)]
    exact sext_append_zero_even _ _
  | viaRegister h2 | entry h2 =>
    rw [ialignBytes_of_c (hsize h2)]
    exact even_of_clear_bit_zero _

/-! ## What keeps pc, mepc and sepc aligned -/

/-- The invariant depends on the parameters and the three registers alone. -/
theorem alignInv_congr {s t : State} (hs : s.alignInv) (hc : t.cfg = s.cfg) (hpc : t.pc = s.pc) (hm : t.mepc = s.mepc)
    (hsepc : t.sepc = s.sepc) : t.alignInv := by
  unfold State.alignInv
  rwa [hc, hpc, hm, hsepc]

/-- Moving pc to an instruction address keeps the invariant. -/
theorem withPc_alignInv {s : State} {w : Word} (hs : s.alignInv) (hw : w.toNat % s.cfg.ext.ialignBytes = 0) :
    ({ s with pc := w } : State).alignInv := by
  obtain ⟨-, hm, hsepc⟩ := hs
  exact ⟨hw, hm, hsepc⟩

/-- Moving past an instruction keeps the invariant. -/
theorem advance_alignInv {s : State} {n : Nat} (hs : s.alignInv) (hn : s.cfg.ext.ialignBytes ∣ n) : (s.advance n).alignInv :=
  withPc_alignInv hs (advance_pc_aligned hs.1 hn)

/-- Taking an exception keeps the invariant, whatever pc it saves (60_exceptions.md R614). -/
theorem enterTrap_alignInv {s : State} (hs : s.alignInv) (c : Exc) (v : Word) : (s.enterTrap c v).alignInv := by
  obtain ⟨-, -, hsepc⟩ := hs
  unfold State.alignInv
  rw [enterTrap_cfg, enterTrap_pc, enterTrap_mepc, enterTrap_sepc]
  exact ⟨handler_aligned s, epcValue_aligned _ _, hsepc⟩

/-- A write of a CSR keeps the invariant: mepc and sepc take instruction addresses only (10_state.md R35). -/
theorem csrWrite_alignInv {s : State} (hs : s.alignInv) (v : Word) (c : Csr) : (s.csrWrite v c).alignInv := by
  obtain ⟨hpc, hmepc, hsepc⟩ := id hs
  cases c with
  | mepc => exact ⟨hpc, epcValue_aligned _ _, hsepc⟩
  | sepc => exact ⟨hpc, hmepc, epcValue_aligned _ _⟩
  | mstatus =>
    unfold State.csrWrite
    dsimp only
    split <;> exact hs
  | fflags | frm | fcsr | jvt | sstatus | stvec | sscratch | scause | stval | mtvec | mscratch | mcause | mtval =>
    exact alignInv_congr hs (csrWrite_frame s v _).1 (by simp [State.csrWrite]) (by simp [State.csrWrite])
      (by simp [State.csrWrite])

section
variable {i : Instr} {s t : State}

/-- Writes of registers and memory keep the invariant. -/
theorem Written.alignInv (hu : Written s t) (hs : s.alignInv) : t.alignInv := by
  induction hu with
  | refl => exact hs
  | setX _ _ _ ih | setF _ _ _ ih | orFlags _ _ ih | poke _ _ _ _ ih =>
    exact alignInv_congr ih (by simp) (by simp) (by simp) (by simp)
  | drawn _ ih => exact ih

/-- Every instruction that exists on the machine keeps the invariant. -/
theorem Effect.alignInv (h : Effect i s t) (hsize : i.size = 2 → s.cfg.ext.c = true) (hs : s.alignInv) : t.alignInv := by
  have hdvd := ialignBytes_dvd_size hsize
  have hpast {u : State} (hu : Written s u) : (u.advance i.size).alignInv := by
    refine advance_alignInv (hu.alignInv hs) ?_
    rwa [hu.cfg_eq]
  cases h with
  | retire hu | reserve hu | unreserve hu => exact hpast hu
  | jump hu hw =>
    refine withPc_alignInv (hu.alignInv hs) ?_
    rw [hu.cfg_eq]
    exact hw.aligned hsize hs.1
  | trap hu => exact enterTrap_alignInv (hu.alignInv hs) _ _
  | writeCsr _ hu hw =>
    refine advance_alignInv (hw.alignInv (csrWrite_alignInv (hu.alignInv hs) _ _)) ?_
    rwa [hw.cfg_eq, (csrWrite_frame _ _ _).1, hu.cfg_eq]
  | fetchFence => exact hpast .refl
  | wait => exact hs
  | returnFromM =>
    exact alignInv_congr (withPc_alignInv hs (epcValue_aligned s.cfg s.mepc)) (returnFromM_cfg s) rfl (returnFromM_mepc s)
      (returnFromM_sepc s)
  | returnFromS =>
    exact alignInv_congr (withPc_alignInv hs (epcValue_aligned s.cfg s.sepc)) (returnFromS_cfg s) rfl (returnFromS_mepc s)
      (returnFromS_sepc s)

end

/-- Settles O12: an instruction that decodes has a length of the machine's alignment, so that every effect of it, like a trap of the
fetch or of the decoding, leaves instruction addresses. -/
theorem stepKeepsInstructionAddressesAligned : Obligations.StepKeepsInstructionAddressesAligned := by
  intro s t hs h
  rcases step_effect h with ⟨code, i, -, hdecode, he⟩ | ⟨-, c, v, rfl⟩
  · exact he.alignInv (c_of_size_two (decode_wf hdecode)) hs
  · exact enterTrap_alignInv hs c v

end Sys2Proof.Machine
end

section
/-! Proofs about instruction fetches (20_memory.md R63, R69, R79): what they read, and where a stale byte stops them. -/

namespace Sys2Proof.Machine

/-! ## What a read as a fetch gives -/

section
variable {s : State} {addr : Word} {n k v : Nat}

/-- A fetch of bytes that may be fetched, are not stale and hold a number gives the number (20_memory.md R61, R69, R79). -/
theorem fetchRead_of_holds (hm : Mapped s .execute addr n) (hfresh : ∀ j < n, byteAddr s addr j ∉ s.stale)
    (hv : Holds s addr n v) : s.fetchRead addr n = .ok (BitVec.ofNat 64 v) :=
  (fetchRead_eq_peek hm hfresh).trans (peek_of_holds hv)

/-- A fetch of bytes that may not all be fetched raises instruction-access-fault with its own address (60_exceptions.md R602). -/
theorem fetchRead_of_not_mapped (hm : ¬Mapped s .execute addr n) :
    s.fetchRead addr n = .error (.exc .instrAccessFault addr) := by
  have hp : permitted s.cfg .execute addr n = false := Bool.eq_false_iff.2 (permitted_iff.not.2 hm)
  rw [State.fetchRead, hp]
  rfl

/-- The first stale byte of an access is the one `firstStale` finds (log 18). -/
theorem firstStale_of_firstByte (hk : FirstByte s addr n (Stale s) k) :
    s.firstStale (accessAddrs s.cfg.xlen addr n) = some (byteAddr s addr k) := by
  obtain ⟨hkn, hstale, hbefore⟩ := hk
  have hfind : (List.range n).find? (fun j => s.stale.contains (byteAddr s addr j)) = some k := by
    simpa using ⟨hstale, hkn, hbefore⟩
  rw [State.firstStale, accessAddrs_eq, List.find?_map]
  exact congrArg (Option.map (byteAddr s addr)) hfind

/-- A fetch of bytes that may be fetched stops at the first that is stale (20_memory.md R79). -/
theorem fetchRead_of_stale (hm : Mapped s .execute addr n) (hk : FirstByte s addr n (Stale s) k) :
    s.fetchRead addr n = .error (.fault (.staleFetch (byteAddr s addr k))) := by
  rw [State.fetchRead, permitted_iff.2 hm, firstStale_of_firstByte hk]
  rfl

end

/-! ## The fetch of an instruction -/

section
variable {s : State} {lo hi k : Nat}

/-- A first parcel whose two low bits are not 11 is the instruction (30_encoding.md R101). -/
theorem fetch_half (hlo : s.fetchRead s.pc 2 = .ok (BitVec.ofNat 64 lo)) (hshort : lo % 4 ≠ 3) :
    s.fetch = .ok (.half (BitVec.ofNat 16 lo)) := by
  have hlong : isLong ((BitVec.ofNat 64 lo).setWidth 16) = false := (isLong_ofNat lo).trans (decide_eq_false hshort)
  rw [State.fetch, hlo]
  simp only [hlong, Bool.false_eq_true, if_false]
  rw [BitVec.setWidth_ofNat_of_le (by decide)]

/-- Two parcels side by side are the number with the second above the first (20_memory.md R63). -/
theorem parcels_append (hlo : lo < 65536) :
    (BitVec.ofNat 64 hi).setWidth 16 ++ (BitVec.ofNat 64 lo).setWidth 16 = BitVec.ofNat 32 (hi * 65536 + lo) := by
  apply BitVec.eq_of_toNat_eq
  simp only [BitVec.toNat_append, BitVec.toNat_setWidth, BitVec.toNat_ofNat]
  rw [← Nat.shiftLeft_add_eq_or_of_lt (Nat.mod_lt _ (by decide)), Nat.shiftLeft_eq]
  omega

/-- A first parcel whose two low bits are 11 is the lower half of the instruction (20_memory.md R63, 30_encoding.md R101). -/
theorem fetch_full (hlo : s.fetchRead s.pc 2 = .ok (BitVec.ofNat 64 lo)) (hbound : lo < 65536) (hlong : lo % 4 = 3)
    (hhi : s.fetchRead (effAddr s.xlen s.pc 2#64) 2 = .ok (BitVec.ofNat 64 hi)) :
    s.fetch = .ok (.full (BitVec.ofNat 32 (hi * 65536 + lo))) := by
  rw [State.xlen] at hhi
  rw [State.fetch, hlo]
  simp only [isLong_ofNat, hlong, decide_true, if_true, hhi, parcels_append hbound]

/-- A fetch that calls for a second parcel stops as the read of it does (30_encoding.md R101). -/
theorem fetch_of_long_error {e : Stop} (hlo : s.fetchRead s.pc 2 = .ok (BitVec.ofNat 64 lo)) (hlong : lo % 4 = 3)
    (hhi : s.fetchRead (effAddr s.xlen s.pc 2#64) 2 = .error e) : s.fetch = .error e :=
  fetch_of_second_error hlo ((isLong_ofNat lo).trans (decide_eq_true hlong)) hhi

/-- A step whose first parcel has a stale byte stops there (20_memory.md R79). -/
theorem step_of_stale (hrunning : NotHalting s) (hm : Mapped s .execute s.pc 2) (hk : FirstByte s s.pc 2 (Stale s) k) :
    step s = .fault (.staleFetch (byteAddr s s.pc k)) := by
  refine step_stops hrunning ?_
  rw [State.fetch, fetchRead_of_stale hm hk]

end

/-- Settles O3: the first parcel is read, and where it calls for a second the fetch is decided by the read of that one. -/
theorem fetchReadsOneOrTwoParcels : Obligations.FetchReadsOneOrTwoParcels := by
  intro s lo next hm hfresh hlo
  have hfirst := fetchRead_of_holds hm hfresh hlo
  obtain ⟨hbound, -⟩ := hlo
  refine ⟨fetch_half hfirst, fun hlong => ⟨fun hi hm' hfresh' hhi => ?_, fun hm' => ?_, fun k hm' hk => ?_⟩⟩
  · exact fetch_full hfirst hbound hlong (fetchRead_of_holds hm' hfresh' hhi)
  · exact fetch_of_long_error hfirst hlong (fetchRead_of_not_mapped hm')
  · exact fetch_of_long_error hfirst hlong (fetchRead_of_stale hm' hk)

/-! ## Stale table entries, and the bytes a store makes stale -/

section
variable {s : State} {addr : Word} {n w : Nat} {v : Word}

/-- A table jump whose entry has a stale byte stops there (49_zc_code_size.md R555). -/
theorem tableJump_of_stale {i : Instr} {index : BitVec 8} {link : State → State} {k : Nat} (hmode : s.jvt.toNat % 64 = 0)
    (hentry : addr = wrap s (s.jvt.toNat / 64 * 64 + index.toNat * s.cfg.xlen.bytes))
    (hm : Mapped s .execute addr s.cfg.xlen.bytes) (hk : FirstByte s addr s.cfg.xlen.bytes (Stale s) k) :
    s.tableJump i index link = .fault (.staleFetch (byteAddr s addr k)) := by
  have hdefined : s.jvt.extractLsb' 0 6 = 0#6 := by
    apply BitVec.eq_of_toNat_eq
    simpa using hmode
  have hread := fetchRead_of_stale hm hk
  rw [hentry, ← tableEntry_eq, State.xlen] at hread ⊢
  rw [State.tableJump, if_neg (not_not.2 hdefined), State.xlen, hread]
  rfl

/-- The addresses of an access depend on the parameters alone. -/
theorem byteAddr_congr {t : State} (h : t.cfg = s.cfg) (addr : Word) (k : Nat) : byteAddr t addr k = byteAddr s addr k := by
  rw [byteAddr, h, byteAddr]

/-- A store that passes its checks completes (20_memory.md R61). -/
theorem storeX_of_mapped (ha : AlignedOrEmulated s addr w) (hm : Mapped s .store addr w) :
    s.storeX n addr w v = .next ((s.poke addr w v).advance n) := by
  rw [State.storeX, State.store, checkAccess_of_mapped ha hm]
  rfl

/-- Every byte of a store joins the fetch-coherence set (10_state.md R42). -/
theorem mem_poke_stale {k : Nat} (hk : k < w) : byteAddr s addr k ∈ (s.poke addr w v).stale := by
  refine (putBytes_stale s _ _).2 (.inr ?_)
  rw [List.map_fst_zip (by simp [accessAddrs, wordBytes]), accessAddrs_eq]
  exact List.mem_map_of_mem (List.mem_range.2 hk)

end

/-- Settles O4: each kind of fetch is its read, which stops at the first stale byte; a store makes its bytes stale. -/
theorem storedBytesAreStaleUntilFenceI : Obligations.StoredBytesAreStaleUntilFenceI := by
  refine ⟨fun s k => step_of_stale, ?_, ?_, ?_, ?_⟩
  · intro s lo k next hrunning hm hfresh hlo hlong hm' hk
    exact step_stops hrunning (fetch_of_long_error (fetchRead_of_holds hm hfresh hlo) hlong (fetchRead_of_stale hm' hk))
  · intro s index k w entry hmode hm hk
    show execCmJt index s = _ ∧ execCmJalt index s = _
    exact ⟨tableJump_of_stale hmode rfl hm hk, tableJump_of_stale hmode rfl hm hk⟩
  · intro rs1 rs2 imm s t addr ha hm hstore hrunning hpc hfetchable
    have hcompletes : exec (.sw rs1 rs2 imm) s = .next ((s.poke addr 4 (s.getX rs2)).advance 4) := storeX_of_mapped ha hm
    have ht : t = (s.poke addr 4 (s.getX rs2)).advance 4 := (Host.Outcome.next.inj (hcompletes.symm.trans hstore)).symm
    have hbyte : byteAddr t addr 0 = byteAddr s addr 0 := byteAddr_congr (by simp [ht]) addr 0
    have hstale : Stale t (byteAddr t addr 0) := by
      rw [hbyte, ht]
      exact mem_poke_stale (by decide)
    rw [← hpc] at hfetchable hstale hbyte ⊢
    rw [← hbyte]
    exact step_of_stale hrunning hfetchable ⟨by decide, hstale, nofun⟩
  · intro rd rs1 imm s
    exact ⟨{ s.advance 4 with stale := [] }, rfl, rfl, (wrap_add_ofNat s s.pc 4).symm, fun a => rfl, rfl⟩

end Sys2Proof.Machine
end

section
/-! Proofs about the encoding (30_encoding.md): the encoder and the decoder are inverse to each other. -/

namespace Sys2Proof

/-! ## Fields of a word -/

section
variable {k a b s n s' n' : Nat}

/-- A word is two parts side by side exactly when each part is its bits. -/
theorem append_eq_iff {x : BitVec a} {y : BitVec b} {w : BitVec (a + b)} :
    x ++ y = w ↔ x = w.extractLsb' b a ∧ y = w.extractLsb' 0 b := by
  constructor
  · rintro rfl
    rw [BitVec.extractLsb'_append_eq_left, BitVec.extractLsb'_append_eq_right]
    exact ⟨rfl, rfl⟩
  · rintro ⟨rfl, rfl⟩
    rw [BitVec.extractLsb'_append_extractLsb'_eq_extractLsb' (Nat.zero_add b).symm, BitVec.extractLsb'_eq_self]

/-- A field of a field is a field of the word. -/
theorem extractLsb'_extractLsb' {w : BitVec k} (h : s' + n' ≤ n) :
    (w.extractLsb' s n).extractLsb' s' n' = w.extractLsb' (s + s') n' := by
  ext j hj
  have hin : s' + j < n := by omega
  simp [hin, Nat.add_assoc]

/-- All the bits of a field are the field. -/
theorem extractLsb'_all {x : BitVec n} (hs : s = 0) : x.extractLsb' s n = x := by
  rw [hs, BitVec.extractLsb'_eq_self]

/-- A field that the mask fixes holds what the pattern holds there. -/
theorem extractLsb'_of_match {w m p : BitVec k} (h : w &&& m = p) (hm : m.extractLsb' s n = BitVec.allOnes n) :
    w.extractLsb' s n = p.extractLsb' s n := by
  rw [← h, BitVec.extractLsb'_and, hm, BitVec.and_allOnes]

/-- Two parts side by side agree with a pattern exactly when each part does. -/
theorem append_and_eq_iff {x : BitVec a} {y : BitVec b} {m p : BitVec (a + b)} :
    (x ++ y) &&& m = p ↔ x &&& m.extractLsb' b a = p.extractLsb' b a ∧ y &&& m.extractLsb' 0 b = p.extractLsb' 0 b := by
  have hm : m.extractLsb' b a ++ m.extractLsb' 0 b = m := append_eq_iff.2 ⟨rfl, rfl⟩
  conv_lhs => rw [← hm, BitVec.and_append, append_eq_iff]

/-- A field that the mask leaves free agrees with a pattern that is zero there. -/
theorem free_and_eq_iff {x m p : BitVec n} (hm : m = 0#n) : x &&& m = p ↔ 0#n = p := by
  rw [hm, BitVec.and_zero]

end

/-! ## What a row writes back -/

/-- Writing the instruction that the row reads from a word of its pattern gives the word. -/
def Row32.WritesBack (r : Row32) : Prop := ∀ w, w &&& r.mask = r.pattern → (r.build w).encode = .full w

/-- `Row32.WritesBack` for 16-bit words. -/
def Row16.WritesBack (r : Row16) : Prop := ∀ w, w &&& r.mask = r.pattern → (r.build w).encode = .half w

/-- A row that fixes every bit writes back its only word, when that is the word of its instruction. -/
theorem Row32.writesBack_of_fixed {r : Row32} (hm : r.mask = 0xffffffff#32)
    (h : (r.build r.pattern).encode = .full r.pattern) : r.WritesBack := by
  intro w hw
  have hw : w = r.pattern := by rwa [hm, show 0xffffffff#32 = BitVec.allOnes 32 from rfl, BitVec.and_allOnes] at hw
  rwa [hw]

/-- `Row32.writesBack_of_fixed` for 16-bit words. -/
theorem Row16.writesBack_of_fixed {r : Row16} (hm : r.mask = 0xffff#16)
    (h : (r.build r.pattern).encode = .half r.pattern) : r.WritesBack := by
  intro w hw
  have hw : w = r.pattern := by rwa [hm, show 0xffff#16 = BitVec.allOnes 16 from rfl, BitVec.and_allOnes] at hw
  rwa [hw]

/-- A row with operands writes back: each operand's bits go where they were read, and every other bit is fixed by the pattern. -/
theorem rows32_writeBack_operands : ∀ r ∈ rows32, r.mask ≠ 0xffffffff#32 → r.WritesBack := by
  simp only [rows32, rows32Base1, rows32Base2, rows32Base3, rows32Base4, rows32M1, rows32A1, rows32A2, rows32F1, rows32F2,
    rows32D1, rows32D2, rows32B1, rows32B2, rows32B3, rows32Zfh1, rows32Zfh2, rows32Zfh3, List.forall_mem_append,
    List.forall_mem_cons, List.not_mem_nil, ne_eq, not_true_eq_false, false_imp_iff, imp_true_iff, true_and, and_true]
  and_intros
  all_goals
    intro _ w h
    refine congrArg Code.full (append_eq_iff.2 ?_)
    simp (disch := decide) only [append_eq_iff, BitVec.extractLsb'_append_eq_of_le, BitVec.extractLsb'_append_eq_of_add_le,
      extractLsb'_extractLsb', extractLsb'_of_match h]
    decide

/-- `rows32_writeBack_operands` for 16-bit words. -/
theorem rows16_writeBack_operands : ∀ r ∈ rows16, r.mask ≠ 0xffff#16 → r.WritesBack := by
  simp only [rows16, rows16C1, rows16C2, rows16C3, rows16Zc1, rows16Zc2, List.forall_mem_append, List.forall_mem_cons,
    List.not_mem_nil, ne_eq, not_true_eq_false, false_imp_iff, imp_true_iff, true_and, and_true]
  and_intros
  all_goals
    intro _ w h
    refine congrArg Code.half (append_eq_iff.2 ?_)
    simp (disch := decide) only [append_eq_iff, BitVec.extractLsb'_append_eq_of_le, BitVec.extractLsb'_append_eq_of_add_le,
      extractLsb'_extractLsb', extractLsb'_of_match h]
    decide

/-- The words of the instructions without operands (ecall, ebreak, sret, mret, wfi). -/
theorem rows32_fixed : ∀ r ∈ rows32, r.mask = 0xffffffff#32 → (r.build r.pattern).encode = .full r.pattern := by
  decide +kernel

/-- The word of the 16-bit instruction without operands (c.ebreak). -/
theorem rows16_fixed : ∀ r ∈ rows16, r.mask = 0xffff#16 → (r.build r.pattern).encode = .half r.pattern := by
  decide +kernel

/-- Every row of the 32-bit table writes back. -/
theorem rows32_writeBack {r : Row32} (hr : r ∈ rows32) : r.WritesBack := by
  by_cases hm : r.mask = 0xffffffff#32
  · exact Row32.writesBack_of_fixed hm (rows32_fixed r hr hm)
  · exact rows32_writeBack_operands r hr hm

/-- Every row of the 16-bit table writes back. -/
theorem rows16_writeBack {r : Row16} (hr : r ∈ rows16) : r.WritesBack := by
  by_cases hm : r.mask = 0xffff#16
  · exact Row16.writesBack_of_fixed hm (rows16_fixed r hr hm)
  · exact rows16_writeBack_operands r hr hm

/-- Settles O7: what the decoder answers is read by a row, whose conditions it meets, and every row writes back. -/
theorem encodeInvertsDecode : Obligations.EncodeInvertsDecode := by
  intro xlen ext code i h
  refine ⟨decode_wf h, ?_⟩
  cases code with
  | half w =>
    obtain ⟨r, hr, hw, rfl, -⟩ := decode16_some h
    exact rows16_writeBack hr w hw
  | full w =>
    obtain ⟨r, hr, hw, rfl, -⟩ := decode32_some h
    exact rows32_writeBack hr w hw

/-! ## The row of an instruction -/

/-- A row of either table. -/
inductive Row where
  | full (r : Row32)
  | half (r : Row16)

/-- Whether a row is listed in its table. -/
def Row.Listed : Row → Prop
  | .full r => r ∈ rows32
  | .half r => r ∈ rows16

/-- Whether the code has the length and the fixed bits of the row. -/
def Row.Fits : Row → Code → Prop
  | .full r, .full w => w &&& r.mask = r.pattern
  | .half r, .half w => w &&& r.mask = r.pattern
  | _, _ => False

/-- The instruction that the row reads from code of its length. -/
def Row.read : Row → Code → Option Instr
  | .full r, .full w => some (r.build w)
  | .half r, .half w => some (r.build w)
  | _, _ => none

/-- The rows of both tables, in the order of the constructors of `Instr`. -/
noncomputable def tableRows : List Row :=
  (rows32Base1 ++ rows32Base2 ++ rows32Base3 ++ rows32Base4 ++ rows32F1 ++ rows32F2 ++ rows32D1 ++ rows32D2 ++ rows32Zfh1
      ++ rows32Zfh2 ++ rows32Zfh3).map .full
    ++ rows16.map .half ++ (rows32M1 ++ rows32A1 ++ rows32A2 ++ rows32B1 ++ rows32B2 ++ rows32B3).map .full

/-- `tableRows` holds rows of the two tables only. -/
theorem listed_of_mem_tableRows {row : Row} (h : row ∈ tableRows) : row.Listed := by
  simp only [tableRows, List.mem_append, List.mem_map] at h
  rcases h with (⟨r, hr, rfl⟩ | ⟨r, hr, rfl⟩) | ⟨r, hr, rfl⟩
  · simp only [Row.Listed, rows32, List.mem_append]
    tauto
  · exact hr
  · simp only [Row.Listed, rows32, List.mem_append]
    tauto

/-- The row of an instruction, which stands in `tableRows` where its constructor stands in `Instr`. -/
noncomputable def Instr.row? (i : Instr) : Option Row := tableRows[i.ctorIdx]?

/-- The word of an instruction has the fixed bits of its row: each is a constant of the encoding. -/
theorem row_fits (i : Instr) : ∃ row, i.row? = some row ∧ row.Fits i.encode := by
  cases i with
  | ecall | ebreak | sret | mret | wfi | cEbreak => exact ⟨_, rfl, rfl⟩
  | _ =>
    refine ⟨_, rfl, append_and_eq_iff.2 ?_⟩
    simp (disch := decide) only [append_and_eq_iff, extractLsb'_extractLsb', free_and_eq_iff]
    decide

/-- The row of an instruction reads it back from its word: each operand is read from the bits it was written to. -/
theorem row_reads (i : Instr) : ∃ row, i.row? = some row ∧ row.read i.encode = some i := by
  cases i with
  | ecall | ebreak | sret | mret | wfi | cEbreak => exact ⟨_, rfl, rfl⟩
  | _ =>
    refine ⟨_, rfl, congrArg some ?_⟩
    simp (disch := decide) only [BitVec.extractLsb'_append_eq_of_le, BitVec.extractLsb'_append_eq_of_add_le,
      BitVec.extractLsb'_append_extractLsb'_eq_extractLsb', extractLsb'_all]

/-! ## The rows of the 16-bit table exclude each other -/

/-- No machine has both rows: their XLENs differ, or one needs a unit that the other excludes (30_encoding.md R122). -/
def Availability.disjoint (v u : Availability) : Bool :=
  (!(v.on32 && u.on32) && !(v.on64 && u.on64)) || v.needs.any u.excludes.contains || u.needs.any v.excludes.contains

/-- A unit that one row needs and the other excludes keeps them on different machines. -/
theorem not_on_of_excluded {v u : Availability} {xlen : Xlen} {ext : Ext} (h : v.needs.any u.excludes.contains = true)
    (hv : v.on xlen ext = true) (hu : u.on xlen ext = true) : False := by
  obtain ⟨unit, hneeds, hexcludes⟩ := List.any_eq_true.1 h
  simp only [Availability.on, Bool.and_eq_true, List.all_eq_true] at hv hu
  obtain ⟨⟨⟨-, hhas⟩, -⟩, -⟩ := hv
  obtain ⟨⟨-, hhasNot⟩, -⟩ := hu
  have hno := hhasNot unit (List.contains_iff_mem.1 hexcludes)
  rw [hhas unit hneeds] at hno
  exact Bool.false_ne_true hno

/-- No machine has two rows whose machines are disjoint. -/
theorem not_on_of_disjoint {v u : Availability} {xlen : Xlen} {ext : Ext} (h : v.disjoint u = true)
    (hv : v.on xlen ext = true) (hu : u.on xlen ext = true) : False := by
  rw [Availability.disjoint, Bool.or_eq_true, Bool.or_eq_true] at h
  rcases h with (hxlen | hunit) | hunit
  · simp only [Availability.on, Bool.and_eq_true] at hv hu
    obtain ⟨⟨⟨hv, -⟩, -⟩, -⟩ := hv
    obtain ⟨⟨⟨hu, -⟩, -⟩, -⟩ := hu
    cases xlen with
    | rv32 => exact absurd hxlen (by simp [show v.on32 = true from hv, show u.on32 = true from hu])
    | rv64 => exact absurd hxlen (by simp [show v.on64 = true from hv, show u.on64 = true from hu])
  · exact not_on_of_excluded hunit hv hu
  · exact not_on_of_excluded hunit hu hv

/-- The machines of a row do not depend on the word. -/
theorem rows16_availability : ∀ r ∈ rows16, ∀ w, (r.build w).availability = (r.build 0#16).availability := by
  simp only [rows16, rows16C1, rows16C2, rows16C3, rows16Zc1, rows16Zc2, List.forall_mem_append, List.forall_mem_cons,
    List.not_mem_nil, false_imp_iff, imp_true_iff, true_and, and_true]
  and_intros <;> exact fun _ => rfl

/-- Two rows differ in a bit that both fix (30_encoding.md R122). -/
def Row16.apart (r q : Row16) : Bool := r.pattern &&& q.mask != q.pattern &&& r.mask

/-- Two rows that no word and machine have together. -/
def Row16.Exclusive (r q : Row16) : Prop :=
  ∀ (xlen : Xlen) (ext : Ext) (w : BitVec 16), ¬(r.admits xlen ext w = true ∧ q.admits xlen ext w = true)

/-- A row admits a word of its pattern on the machines that have the instruction, when the fields meet the conditions. -/
theorem Row16.admits_iff {r : Row16} {xlen : Xlen} {ext : Ext} {w : BitVec 16} :
    r.admits xlen ext w = true ↔
      w &&& r.mask = r.pattern ∧ (r.build w).availability.on xlen ext = true ∧ (r.build w).fieldsOk xlen = true := by
  rw [Row16.admits, Instr.wf, Bool.and_eq_true, Bool.and_eq_true, beq_iff_eq]

/-- A bit that both rows fix, each its own way. -/
theorem Row16.Exclusive.of_apart {r q : Row16} (h : r.apart q = true) : r.Exclusive q := by
  rintro xlen ext w ⟨hr, hq⟩
  obtain ⟨hr, -⟩ := Row16.admits_iff.1 hr
  obtain ⟨hq, -⟩ := Row16.admits_iff.1 hq
  exact bne_iff_ne.1 h (not_both_match hr hq)

/-- Two rows of the table that are on different machines. -/
theorem Row16.Exclusive.of_disjoint {r q : Row16} (hr : r ∈ rows16) (hq : q ∈ rows16)
    (h : (r.build 0#16).availability.disjoint (q.build 0#16).availability = true) : r.Exclusive q := by
  rintro xlen ext w ⟨hra, hqa⟩
  obtain ⟨-, hra, -⟩ := Row16.admits_iff.1 hra
  obtain ⟨-, hqa, -⟩ := Row16.admits_iff.1 hqa
  rw [rows16_availability r hr] at hra
  rw [rows16_availability q hq] at hqa
  exact not_on_of_disjoint h hra hqa

/-- A field that the first row fixes, and that the conditions of the second forbid to hold that value. -/
theorem Row16.Exclusive.of_fixed {r q : Row16} (start len : Nat) (hm : r.mask.extractLsb' start len = BitVec.allOnes len)
    (hq : ∀ xlen w, (q.build w).fieldsOk xlen = true → w.extractLsb' start len ≠ r.pattern.extractLsb' start len) :
    r.Exclusive q := by
  rintro xlen ext w ⟨hra, hqa⟩
  obtain ⟨hw, -⟩ := Row16.admits_iff.1 hra
  obtain ⟨-, -, hfields⟩ := Row16.admits_iff.1 hqa
  exact hq xlen w hfields (extractLsb'_of_match hw hm)

/-- Two rows whose conditions on the fields no word meets together. -/
theorem Row16.Exclusive.of_fieldsOk {r q : Row16}
    (h : ∀ xlen w, (r.build w).fieldsOk xlen = true → (q.build w).fieldsOk xlen = true → False) : r.Exclusive q := by
  rintro xlen ext w ⟨hra, hqa⟩
  obtain ⟨-, -, hr⟩ := Row16.admits_iff.1 hra
  obtain ⟨-, -, hq⟩ := Row16.admits_iff.1 hqa
  exact h xlen w hr hq

/-- The places in the 16-bit table of the pairs of rows that only a condition on a field tells apart: c.nop and c.addi,
c.addi16sp and c.lui, c.jr and c.mv, c.ebreak and c.jalr, c.ebreak and c.add, c.jalr and c.add, cm.jt and cm.jalt. -/
def fieldPairs : List (Nat × Nat) := [(9, 10), (14, 15), (33, 34), (35, 36), (35, 37), (36, 37), (60, 61)]

/-- In each of these pairs the first row fixes a field at the value that the second's condition forbids, or, for cm.jt and cm.jalt,
the two conditions contradict each other (30_encoding.md R122). -/
theorem exclusive_of_mem_fieldPairs {a b : Nat} {r q : Row16} (h : (a, b) ∈ fieldPairs) (hr : rows16[a]? = some r)
    (hq : rows16[b]? = some q) : r.Exclusive q := by
  simp only [fieldPairs, List.mem_cons, Prod.mk.injEq, List.not_mem_nil, or_false] at h
  rcases h with ⟨rfl, rfl⟩ | ⟨rfl, rfl⟩ | ⟨rfl, rfl⟩ | ⟨rfl, rfl⟩ | ⟨rfl, rfl⟩ | ⟨rfl, rfl⟩ | ⟨rfl, rfl⟩ <;>
    obtain rfl := Option.some.inj hr <;> obtain rfl := Option.some.inj hq
  · exact .of_fixed 7 5 rfl fun _ _ hrd => bne_iff_ne.1 hrd
  · exact .of_fixed 7 5 rfl fun _ _ hfields => bne_iff_ne.1 (Bool.and_eq_true_iff.1 hfields).1
  · exact .of_fixed 2 5 rfl fun _ _ hrs2 => bne_iff_ne.1 hrs2
  · exact .of_fixed 7 5 rfl fun _ _ hrs1 => bne_iff_ne.1 hrs1
  · exact .of_fixed 2 5 rfl fun _ _ hrs2 => bne_iff_ne.1 hrs2
  · exact .of_fixed 2 5 rfl fun _ _ hrs2 => bne_iff_ne.1 hrs2
  · exact .of_fieldsOk fun _ _ hjt hjalt => (of_decide_eq_true hjt).not_ge (of_decide_eq_true hjalt)

/-- Every two rows of the 16-bit table are told apart by a fixed bit, by the machines they are on, or by a condition on a field. -/
theorem rows16_told_apart : rows16.zipIdx.Pairwise fun r q =>
    r.1.apart q.1 = true ∨ (r.1.build 0#16).availability.disjoint (q.1.build 0#16).availability = true
      ∨ (r.2, q.2) ∈ fieldPairs := by
  decide +kernel

/-- No word of a machine is the word of two rows of the 16-bit table. -/
theorem rows16_exclusive : rows16.Pairwise Row16.Exclusive := by
  have h : (rows16.zipIdx.map Prod.fst).Pairwise Row16.Exclusive := by
    refine List.pairwise_map.2 (rows16_told_apart.imp_of_mem ?_)
    intro r q hr hq htold
    have hr := List.mem_zipIdx_iff_getElem?.1 hr
    have hq := List.mem_zipIdx_iff_getElem?.1 hq
    rcases htold with hapart | hdisjoint | hfields
    · exact Row16.Exclusive.of_apart hapart
    · exact Row16.Exclusive.of_disjoint (List.mem_of_getElem? hr) (List.mem_of_getElem? hq) hdisjoint
    · exact exclusive_of_mem_fieldPairs hfields hr hq
  rwa [List.zipIdx_map_fst] at h

/-- A row that admits a 16-bit word is the row the decoder takes. -/
theorem decode16_of_admits {xlen : Xlen} {ext : Ext} {w : BitVec 16} {r : Row16} (hr : r ∈ rows16)
    (ha : r.admits xlen ext w = true) : decode16 xlen ext w = some (r.build w) := by
  rw [decode16, find?_eq_of_pairwise (rows16_exclusive.imp fun h => h xlen ext w) hr ha]
  rfl

/-! ## The round trip -/

/-- A row of the tables that fits the code and reads a well-formed instruction from it is the decoder's answer. -/
theorem decode_of_row {xlen : Xlen} {ext : Ext} {row : Row} {code : Code} {i : Instr} (hrow : row.Listed)
    (hfits : row.Fits code) (hread : row.read code = some i) (hwf : i.wf xlen ext = true) : decode xlen ext code = some i := by
  match row, code, hfits with
  | .full r, .full w, hfits =>
    obtain rfl := Option.some.inj hread
    exact decode32_eq hrow (Bool.and_eq_true_iff.2 ⟨beq_iff_eq.2 hfits, hwf⟩)
  | .half r, .half w, hfits =>
    obtain rfl := Option.some.inj hread
    exact decode16_of_admits hrow (Bool.and_eq_true_iff.2 ⟨beq_iff_eq.2 hfits, hwf⟩)

/-- Settles O6: the row of an instruction fits its word and reads it back, and no other row admits the word. -/
theorem decodeInvertsEncode : Obligations.DecodeInvertsEncode := by
  intro i xlen ext hwf
  obtain ⟨row, hrow, hfits⟩ := row_fits i
  obtain ⟨row', hrow', hread⟩ := row_reads i
  obtain rfl : row = row' := Option.some.inj (hrow.symm.trans hrow')
  exact decode_of_row (listed_of_mem_tableRows (List.mem_of_getElem? hrow)) hfits hread hwf

/-- The word of a well-formed instruction decodes to it. -/
theorem decode_of_encode {i : Instr} {xlen : Xlen} {ext : Ext} {code : Code} (hcode : i.encode = code)
    (hwf : i.wf xlen ext = true) : decode xlen ext code = some i :=
  hcode ▸ decodeInvertsEncode i xlen ext hwf

/-- Settles O5: each word is the word of its instruction, which is well formed on the machine. -/
theorem sampleWordsDecode : Obligations.SampleWordsDecode := by
  unfold Obligations.SampleWordsDecode
  and_intros
  all_goals exact decode_of_encode rfl rfl

end Sys2Proof
end

section
/-! Proofs about the base instructions (40_base_compute_system.md). First, the integer computation: values read as integers modulo
2^XLEN, and the result of an integer instruction from what its operation computes at every width. -/

namespace Sys2Proof.Machine

/-! ## Words as integers modulo 2^XLEN -/

/-- The word of an integer is that integer in XLEN bits, held in 64 (log 2). -/
theorem wrap_eq_zext (s : State) (z : Int) : wrap s z = zext (BitVec.ofInt s.cfg.xlen.bits z) := by
  apply BitVec.eq_of_toNat_eq
  rw [wrap, zext, BitVec.toNat_ofNat, BitVec.toNat_setWidth, BitVec.toNat_ofInt, Nat.cast_pow, Nat.cast_ofNat]

/-- Cutting a value keeps its low XLEN bits. -/
theorem cut_eq_zext (xlen : Xlen) (w : Word) : cut xlen w = zext (w.setWidth xlen.bits) := by
  cases xlen
  · rfl
  · simp [cut, zext, Xlen.bits]

/-- Truncating the word of an integer gives the word of that integer. -/
theorem setWidth_ofInt {m n : Nat} (h : m ≤ n) (z : Int) : (BitVec.ofInt n z).setWidth m = BitVec.ofInt m z := by
  have hn : (0 : Int) ≤ z % 2 ^ n := Int.emod_nonneg _ (by positivity)
  have hm : (0 : Int) ≤ z % 2 ^ m := Int.emod_nonneg _ (by positivity)
  apply BitVec.eq_of_toNat_eq
  zify
  simp [hn, hm, Int.emod_emod_of_dvd z (pow_dvd_pow 2 h)]

theorem setWidth_zext {n : Nat} (v : BitVec n) (hn : n ≤ 64) : (zext v).setWidth n = v := by
  simp [zext, hn]

theorem xlen_bits_le (xlen : Xlen) : xlen.bits ≤ 64 := by cases xlen <;> decide

/-- A sign-extended value has the same low XLEN bits however wide the extension (00_scope.md R9). -/
theorem setWidth_sext (xlen : Xlen) {n : Nat} (v : BitVec n) : (sext xlen v).setWidth xlen.bits = v.signExtend xlen.bits := by
  rw [sext, cut_eq_zext, setWidth_zext _ (xlen_bits_le xlen)]
  exact setWidth_ofInt (xlen_bits_le xlen) _

/-- An operation on two XLEN-bit values is the operation at width XLEN. -/
theorem lift2_eq_zext (xlen : Xlen) (op : ∀ w, BitVec w → BitVec w → BitVec w) (a b : Word) :
    lift2 xlen op a b = zext (op xlen.bits (a.setWidth xlen.bits) (b.setWidth xlen.bits)) := by
  cases xlen
  · rfl
  · simp [lift2, zext, Xlen.bits]

/-- A test of two XLEN-bit values is the test at width XLEN. -/
theorem test2_eq (xlen : Xlen) (test : ∀ w, BitVec w → BitVec w → Bool) (a b : Word) :
    test2 xlen test a b = test xlen.bits (a.setWidth xlen.bits) (b.setWidth xlen.bits) := by
  cases xlen
  · rfl
  · simp [test2, Xlen.bits]

/-- What a register reads is the number of its XLEN bits. -/
theorem uval_eq (s : State) (r : RegIdx) : ((s.getX r).setWidth s.cfg.xlen.bits).toNat = uval s r := by
  rw [BitVec.toNat_setWidth, Nat.mod_eq_of_lt (getX_lt s r), uval]

/-- An XLEN-bit result is the word of the integer it computes. -/
theorem cut_zext_eq_wrap {s : State} {v : BitVec s.cfg.xlen.bits} {z : Int} (h : v = BitVec.ofInt _ z) :
    cut s.cfg.xlen (zext v) = wrap s z := by
  rw [cut_eq_zext, setWidth_zext _ (xlen_bits_le _), h, wrap_eq_zext]

/-- A sign-extended value is the word of its signed reading (00_scope.md R9). -/
theorem sext_eq_wrap (s : State) {n : Nat} (v : BitVec n) : sext s.cfg.xlen v = wrap s v.toInt := by
  rw [wrap_eq_zext, ← BitVec.signExtend, ← setWidth_sext, ← cut_eq_zext, sext, cut_cut]

/-- An address that is a word plus an offset is the word of the sum (20_memory.md R71). -/
theorem effAddr_wrap (s : State) (base : Word) (z : Int) : effAddr s.cfg.xlen base (wrap s z) = wrap s (base.toNat + z) := by
  rw [effAddr, cut_eq_zext, wrap_eq_zext, wrap_eq_zext, BitVec.setWidth_add _ _ (xlen_bits_le _),
    setWidth_zext _ (xlen_bits_le _), BitVec.ofInt_add, BitVec.ofInt_natCast, BitVec.ofNat_toNat]

/-- The upper immediate of lui and auipc stands for 2^12 times its field (40_base_compute_system.md R150). -/
theorem toInt_upperImmediate (imm : BitVec 20) : (imm ++ 0#12).toInt = imm.toInt * 4096 := by
  rw [BitVec.toInt_append]
  simp [mul_comm]

/-! ## The instructions that write one integer register -/

/-- An integer instruction writes rd and moves past itself, and does nothing else (10_state.md R20, R26). -/
theorem writesX_writeX {s : State} {n : Nat} {rd : RegIdx} {v w : Word} (h : cut s.cfg.xlen v = w) :
    WritesX s (.next (s.writeX n rd v)) n rd w := by
  refine ⟨s.writeX n rd v, rfl, fun q => ?_, ?_, fun a => by rw [writeX_mem], ?_⟩
  · rw [getX_writeX_eq]
    by_cases hq : q = rd
    · subst hq
      by_cases h0 : q = 0#5
      · simp [h0]
      · rw [getX_setX_same s v h0, h, if_pos ⟨rfl, h0⟩]
    · rw [getX_setX_ne s v hq, if_neg fun hc => hq hc.1]
  · rw [writeX_pc, wrap_add_ofNat]
    rfl
  · unfold State.writeX State.setX
    split <;> rfl

section
variable {s : State} {n : Nat} {rd rs1 rs2 : RegIdx}

/-- The integer instruction on two values, from what its operation computes on their XLEN bits. -/
theorem alu2_writesX {op : ∀ w, BitVec w → BitVec w → BitVec w} {a b : Word} {z : Int}
    (h : op s.cfg.xlen.bits (a.setWidth _) (b.setWidth _) = BitVec.ofInt _ z) :
    WritesX s (s.alu2 n rd op a b) n rd (wrap s z) := by
  refine writesX_writeX ?_
  rw [lift2_eq_zext]
  exact cut_zext_eq_wrap h

/-- The comparison of two values, from what its test decides on their XLEN bits. -/
theorem setIf_writesX {test : ∀ w, BitVec w → BitVec w → Bool} {a b : Word} {p : Bool}
    (h : test s.cfg.xlen.bits (a.setWidth _) (b.setWidth _) = p) :
    WritesX s (s.setIf n rd test a b) n rd (wrap s (truth p)) := by
  refine writesX_writeX ?_
  rw [test2_eq, State.xlen, h]
  cases p <;> cases hx : s.cfg.xlen <;> simp [ofBool, truth, wrap, hx] <;> rfl

/-! What an operation computes of the numbers of its operands, at every width, and of a number and a sign-extended immediate. -/

/-- The operation as a function of the unsigned readings. -/
def Computes (op : ∀ w, BitVec w → BitVec w → BitVec w) (spec : Nat → Nat → Nat → Int) : Prop :=
  ∀ (w : Nat) (a b : BitVec w), op w a b = BitVec.ofInt w (spec w a.toNat b.toNat)

/-- The operation on an immediate as a function of the unsigned reading and the immediate. -/
def ComputesImm (op : ∀ w, BitVec w → BitVec w → BitVec w) (spec : Nat → Nat → Int → Int) : Prop :=
  ∀ (w : Nat) (a : BitVec w) (imm : BitVec 12), op w a (imm.signExtend w) = BitVec.ofInt w (spec w a.toNat imm.toInt)

/-- The test as a function of the unsigned readings. -/
def Decides (test : ∀ w, BitVec w → BitVec w → Bool) (spec : Nat → Nat → Nat → Bool) : Prop :=
  ∀ (w : Nat) (a b : BitVec w), test w a b = spec w a.toNat b.toNat

/-- The test against an immediate, which fits the width, as a function of the unsigned reading and the immediate. -/
def DecidesImm (test : ∀ w, BitVec w → BitVec w → Bool) (spec : Nat → Nat → Int → Bool) : Prop :=
  ∀ (w : Nat) (a : BitVec w) (imm : BitVec 12), 12 ≤ w → test w a (imm.signExtend w) = spec w a.toNat imm.toInt

/-- An operation on two registers. -/
theorem alu2_registers {op : ∀ w, BitVec w → BitVec w → BitVec w} {spec : Nat → Nat → Nat → Int} (h : Computes op spec) :
    WritesX s (s.alu2 n rd op (s.getX rs1) (s.getX rs2)) n rd (wrap s (spec s.cfg.xlen.bits (uval s rs1) (uval s rs2))) :=
  alu2_writesX (by rw [h, uval_eq, uval_eq])

/-- An operation on a register and an immediate. -/
theorem alu2_immediate {op : ∀ w, BitVec w → BitVec w → BitVec w} {spec : Nat → Nat → Int → Int} (h : ComputesImm op spec)
    (imm : BitVec 12) :
    WritesX s (s.alu2 n rd op (s.getX rs1) (sext s.xlen imm)) n rd (wrap s (spec s.cfg.xlen.bits (uval s rs1) imm.toInt)) :=
  alu2_writesX (by rw [State.xlen, setWidth_sext, h, uval_eq])

/-- An operation on a register and a shift amount below XLEN, which is its own number at width XLEN. -/
theorem alu2_shamt {op : ∀ w, BitVec w → BitVec w → BitVec w} {spec : Nat → Nat → Nat → Int} (h : Computes op spec)
    {m : Nat} {shamt : BitVec m} (hk : shamt.toNat < s.cfg.xlen.bits) {z : Int}
    (hz : spec s.cfg.xlen.bits (uval s rs1) shamt.toNat = z) :
    WritesX s (s.alu2 n rd op (s.getX rs1) (zext shamt)) n rd (wrap s z) := by
  have hshamt : ((zext shamt).setWidth s.cfg.xlen.bits).toNat = shamt.toNat := by
    rw [zext, BitVec.setWidth_setWidth_of_le _ (xlen_bits_le _), BitVec.toNat_setWidth]
    exact Nat.mod_eq_of_lt (hk.trans Nat.lt_two_pow_self)
  exact alu2_writesX (by rw [h, uval_eq, hshamt, hz])

/-- A comparison of two registers. -/
theorem setIf_registers {test : ∀ w, BitVec w → BitVec w → Bool} {spec : Nat → Nat → Nat → Bool} (h : Decides test spec) :
    WritesX s (s.setIf n rd test (s.getX rs1) (s.getX rs2)) n rd
      (wrap s (truth (spec s.cfg.xlen.bits (uval s rs1) (uval s rs2)))) :=
  setIf_writesX (by rw [h, uval_eq, uval_eq])

/-- A comparison of a register with an immediate. -/
theorem setIf_immediate {test : ∀ w, BitVec w → BitVec w → Bool} {spec : Nat → Nat → Int → Bool} (h : DecidesImm test spec)
    (imm : BitVec 12) :
    WritesX s (s.setIf n rd test (s.getX rs1) (sext s.xlen imm)) n rd
      (wrap s (truth (spec s.cfg.xlen.bits (uval s rs1) imm.toInt))) :=
  setIf_writesX (by rw [State.xlen, setWidth_sext, h _ _ _ (by cases s.cfg.xlen <;> decide), uval_eq])

end

/-! ## What the operations compute -/

/-- An operation that computes a number, by that number. -/
theorem eq_ofInt_natCast {w m : Nat} {v : BitVec w} (h : v.toNat = m % 2 ^ w) : v = BitVec.ofInt w (m : Int) := by
  rw [BitVec.ofInt_natCast]
  exact BitVec.eq_of_toNat_eq (by rw [h, BitVec.toNat_ofNat])

/-- The number of a sign-extended immediate is the immediate modulo 2^w. -/
theorem toNat_signExtend_eq {n : Nat} (w : Nat) (v : BitVec n) : (v.signExtend w).toNat = (v.toInt % 2 ^ w).toNat := by
  rw [BitVec.signExtend, BitVec.toNat_ofInt, Nat.cast_pow, Nat.cast_ofNat]

/-- The signed reading of the statements is that of the bits. -/
theorem signed_toNat {w : Nat} (a : BitVec w) : signed w a.toNat = a.toInt := (BitVec.toInt_eq_toNat_bmod a).symm

theorem addOp_computes : Computes addOp fun _ a b => a + b := fun w a b => by
  simp [addOp, BitVec.ofInt_add]

theorem addOp_computesImm : ComputesImm addOp fun _ a i => a + i := fun w a imm => by
  simp [addOp, BitVec.ofInt_add, BitVec.signExtend]

theorem subOp_computes : Computes subOp fun _ a b => (a : Int) - b := fun w a b => by
  simp [subOp, sub_eq_add_neg, BitVec.ofInt_add, BitVec.ofInt_neg]

theorem xorOp_computes : Computes xorOp fun _ a b => (a ^^^ b : Nat) := fun w a b =>
  eq_ofInt_natCast (by rw [xorOp, BitVec.toNat_xor, Nat.mod_eq_of_lt (Nat.xor_lt_two_pow a.isLt b.isLt)])

theorem orOp_computes : Computes orOp fun _ a b => (a ||| b : Nat) := fun w a b =>
  eq_ofInt_natCast (by rw [orOp, BitVec.toNat_or, Nat.mod_eq_of_lt (Nat.or_lt_two_pow a.isLt b.isLt)])

theorem andOp_computes : Computes andOp fun _ a b => (a &&& b : Nat) := fun w a b =>
  eq_ofInt_natCast (by rw [andOp, BitVec.toNat_and, Nat.mod_eq_of_lt (Nat.and_lt_two_pow _ b.isLt)])

/-- An operation on an immediate reads it modulo 2^w (40_base_compute_system.md R155 to R157). -/
theorem Computes.imm {op : ∀ w, BitVec w → BitVec w → BitVec w} {spec : Nat → Nat → Nat → Int} (h : Computes op spec) :
    ComputesImm op fun n a i => spec n a (i % 2 ^ n).toNat := fun w a imm => by
  rw [h, toNat_signExtend_eq]

theorem sllOp_computes : Computes sllOp fun n a b => a * 2 ^ (b % n) := fun w a b => by
  rw [sllOp, amount]
  exact_mod_cast eq_ofInt_natCast (by rw [BitVec.toNat_shiftLeft, Nat.shiftLeft_eq])

theorem srlOp_computes : Computes srlOp fun n a b => (a / 2 ^ (b % n) : Nat) := fun w a b =>
  eq_ofInt_natCast (by
    rw [srlOp, amount, BitVec.toNat_ushiftRight, Nat.shiftRight_eq_div_pow]
    exact (Nat.mod_eq_of_lt ((Nat.div_le_self _ _).trans_lt a.isLt)).symm)

theorem sraOp_computes : Computes sraOp fun n a b => signed n a / 2 ^ (b % n) := fun w a b => by
  dsimp only
  rw [signed_toNat, sraOp, amount, BitVec.sshiftRight, Int.shiftRight_eq_div_pow, Nat.cast_pow, Nat.cast_ofNat]

theorem ltSigned_decides : Decides ltSigned fun n a b => signed n a < signed n b := fun w a b => by
  dsimp only
  rw [signed_toNat, signed_toNat]
  exact BitVec.slt_eq_decide

theorem ltUnsigned_decides : Decides ltUnsigned fun _ a b => a < b := fun _ _ _ => BitVec.ult_eq_decide

theorem ltSigned_decidesImm : DecidesImm ltSigned fun n a i => signed n a < i := fun w a imm hw => by
  dsimp only
  rw [signed_toNat, ltSigned, BitVec.slt_eq_decide, BitVec.toInt_signExtend_of_le hw]

theorem ltUnsigned_decidesImm : DecidesImm ltUnsigned fun n a i => (a : Int) < i % 2 ^ n := fun w a imm _ => by
  rw [ltUnsigned, BitVec.ult_eq_decide, toNat_signExtend_eq]
  congr 1
  exact propext Int.lt_toNat

/-! ## The obligations -/

/-- Settles O17: each instruction writes what its operation computes of the numbers of its operands. -/
theorem registerInstructionsComplete : Obligations.RegisterInstructionsComplete := by
  intro row hrow rd rs1 rs2 s
  fin_cases hrow
  · exact alu2_registers addOp_computes
  · exact alu2_registers subOp_computes
  · exact alu2_registers sllOp_computes
  · exact setIf_registers ltSigned_decides
  · exact setIf_registers ltUnsigned_decides
  · exact alu2_registers xorOp_computes
  · exact alu2_registers srlOp_computes
  · exact alu2_registers sraOp_computes
  · exact alu2_registers orOp_computes
  · exact alu2_registers andOp_computes

/-- lui writes its immediate times 2^12 (40_base_compute_system.md R150). -/
theorem lui_writesX (rd : RegIdx) (imm : BitVec 20) (s : State) :
    WritesX s (exec (.lui rd imm) s) 4 rd (wrap s (imm.toInt * 4096)) := by
  refine writesX_writeX ?_
  rw [State.xlen, sext, cut_cut, ← sext, sext_eq_wrap, toInt_upperImmediate]

/-- auipc writes pc plus its immediate times 2^12 (40_base_compute_system.md R151). -/
theorem auipc_writesX (rd : RegIdx) (imm : BitVec 20) (s : State) :
    WritesX s (exec (.auipc rd imm) s) 4 rd (wrap s (s.pc.toNat + imm.toInt * 4096)) := by
  refine writesX_writeX ?_
  rw [State.xlen, sext_eq_wrap, effAddr_wrap, toInt_upperImmediate, wrap_eq_zext, cut_eq_zext, setWidth_zext _ (xlen_bits_le _)]

/-- Settles O16: lui and auipc by themselves, the others as their operations on a sign-extended immediate or a shift amount. -/
theorem immediateInstructionsComplete : Obligations.ImmediateInstructionsComplete := by
  refine ⟨fun rd imm s => ⟨lui_writesX rd imm s, auipc_writesX rd imm s⟩, fun row hrow rd rs1 imm s => ?_,
    fun row hrow rd rs1 shamt s hk => ?_⟩ <;> fin_cases hrow
  · exact alu2_immediate addOp_computesImm imm
  · exact setIf_immediate ltSigned_decidesImm imm
  · exact setIf_immediate ltUnsigned_decidesImm imm
  · exact alu2_immediate xorOp_computes.imm imm
  · exact alu2_immediate orOp_computes.imm imm
  · exact alu2_immediate andOp_computes.imm imm
  · exact alu2_shamt sllOp_computes hk (by simp only [Nat.mod_eq_of_lt hk])
  · exact alu2_shamt srlOp_computes hk (by simp only [Nat.mod_eq_of_lt hk])
  · exact alu2_shamt sraOp_computes hk (by simp only [Nat.mod_eq_of_lt hk])

end Sys2Proof.Machine
end

section
/-! Proofs about the system instructions (40_base_compute_system.md R171 to R184): the fences, wfi and the trap returns. -/

namespace Sys2Proof.Machine

/-- Moving past an instruction changes pc alone, to the word of the sum (10_state.md R26). -/
theorem advance_eq (s : State) (n : Nat) : s.advance n = { s with pc := wrap s (s.pc.toNat + n) } := by
  rw [wrap_add_ofNat]
  rfl

/-- Moving past an instruction is all that a fence does. -/
theorem movesPc_advance (s : State) (n : Nat) : MovesPc s (.next (s.advance n)) (wrap s (s.pc.toNat + n)) := by
  rw [MovesPc, advance_eq]

/-- sfence.vma in a mode that may run it moves pc alone (40_base_compute_system.md R184). -/
theorem sfenceVma_next {s : State} (h : s.priv = .M ∨ (s.priv = .S ∧ s.mstatus.tvm = false)) (rs1 rs2 : RegIdx) :
    exec (.sfenceVma rs1 rs2) s = .next (s.advance 4) := by
  refine if_neg ?_
  rcases h with hp | ⟨hp, htvm⟩ <;> simp [*]

/-- Settles O29: each of the three is `State.advance`. -/
theorem fencesOnlyMovePc : Obligations.FencesOnlyMovePc := by
  intro rd rs1 rs2 fm pred succ imm s
  refine ⟨movesPc_advance s 4, movesPc_advance s 2, fun h => ?_⟩
  rw [sfenceVma_next h]
  exact movesPc_advance s 4

/-- wfi in a mode that may run it retires or stays, after drawing one free value (40_base_compute_system.md R183). -/
theorem wfi_next {s : State} (h : s.priv = .M ∨ (s.priv = .S ∧ s.mstatus.tw = false)
      ∨ (s.priv = .U ∧ s.mstatus.tw = false ∧ s.cfg.wfiInUMode = true)) :
    exec .wfi s = .next (if s.free.getLsbD 0 then s.drawn.advance 4 else s.drawn) := by
  refine if_neg ?_
  rcases h with hp | ⟨hp, htw⟩ | ⟨hp, htw, hu⟩ <;> simp [*]

/-- Settles O30: the two values of the bit drawn are the two behaviours. -/
theorem waitForInterruptRetiresOrStays : Obligations.WaitForInterruptRetiresOrStays := by
  intro s h
  refine ⟨_, wfi_next h, ?_⟩
  unfold State.free
  split
  · exact ⟨by rw [advance_eq]; rfl, fun _ => rfl, rfl⟩
  · exact ⟨rfl, fun _ => rfl, rfl⟩

/-- mret in M mode returns (40_base_compute_system.md R182). -/
theorem mret_next {s : State} (h : s.priv = .M) : exec .mret s = .next s.returnFromM :=
  if_neg (by simp [h])

/-- sret in M mode, or in S mode with TSR clear, returns (40_base_compute_system.md R181). -/
theorem sret_next {s : State} (h : s.priv = .M ∨ (s.priv = .S ∧ s.mstatus.tsr = false)) :
    exec .sret s = .next s.returnFromS := by
  refine if_neg ?_
  rcases h with hp | ⟨hp, htsr⟩ <;> simp [*]

/-- MPRV survives a return to M mode only (40_base_compute_system.md R182). -/
theorem mprv_after_return (m : Mstatus) : (m.mprv && m.mpp == .M) = if m.mpp = .M then m.mprv else false := by
  cases m.mpp <;> simp

/-- A return changes nothing but the mode, pc, mstatus, the reservation and the count of free values (20_memory.md R81). -/
theorem returnFromM_frame (s : State) :
    s.returnFromM = { s with
      priv := s.returnFromM.priv, pc := s.returnFromM.pc, mstatus := s.returnFromM.mstatus,
      reservation := s.returnFromM.reservation, draws := s.returnFromM.draws } := by
  unfold State.returnFromM
  rw [mayLoseReservation_frame]

/-- As `returnFromM_frame`, for the return from S mode. -/
theorem returnFromS_frame (s : State) :
    s.returnFromS = { s with
      priv := s.returnFromS.priv, pc := s.returnFromS.pc, mstatus := s.returnFromS.mstatus,
      reservation := s.returnFromS.reservation, draws := s.returnFromS.draws } := by
  unfold State.returnFromS
  rw [mayLoseReservation_frame]

/-- Settles O33: each return is the model's operation, which takes mode, pc and enables from the saved ones. -/
theorem trapReturnsComplete : Obligations.TrapReturnsComplete := by
  refine ⟨fun s h => ⟨s.returnFromM, mret_next h, rfl, rfl, ?_, mayLoseReservation_reservation s, fun a => ?_,
      returnFromM_frame s⟩,
    fun s h => ⟨s.returnFromS, sret_next h, rfl, rfl, rfl, mayLoseReservation_reservation s, fun a => ?_, returnFromS_frame s⟩⟩
  · rw [← mprv_after_return]
    rfl
  · rw [returnFromM_mem]
  · rw [returnFromS_mem]

end Sys2Proof.Machine
end

section
/-! Proofs about the CSR instructions (40_base_compute_system.md R173 to R178; 10_state.md R31 to R38): the bits of a CSR as it is
read and as it is written. -/

namespace Sys2Proof.Machine

/-! ## Addresses and checks -/

/-- The address of a CSR is the one the table of R33 gives it (10_state.md R33). -/
theorem csrOf_eq_some {addr : CsrAddr} {c : Csr} : csrOf addr = some c ↔ (addr.toNat, c) ∈ csrTable := by
  unfold csrOf
  generalize addr.toNat = n
  split <;> simp_all [csrTable, eq_comm (a := c)]

/-- No modelled CSR has a read-only address: bits 11:10 are not 11 (10_state.md R32, R33). -/
theorem csrOf_writable {addr : CsrAddr} {c : Csr} (h : csrOf addr = some c) : addr.extractLsb' 10 2 ≠ 0b11#2 := by
  intro hro
  have hlow : ∀ p ∈ csrTable, p.1 / 2 ^ 10 = 0 := by decide
  have hzero : addr.toNat / 2 ^ 10 = 0 := hlow _ (csrOf_eq_some.1 h)
  have hthree := congrArg BitVec.toNat hro
  rw [BitVec.extractLsb'_toNat, Nat.shiftRight_eq_div_pow, hzero] at hthree
  exact absurd hthree (by decide)

/-- An allowed access passes its checks (60_exceptions.md R622). -/
theorem csrCheck_of_allowed {s : State} {addr : CsrAddr} {c : Csr} (h : CsrAllowed s addr c) (i : Instr) (writes : Bool) :
    s.csrCheck i addr writes = .ok c := by
  obtain ⟨hof, hpresent, hmode, hfp⟩ := h
  have hprivilege : ¬(Priv.code s.priv).toNat < (addr.extractLsb' 8 2).toNat := by
    rw [BitVec.extractLsb'_toNat, Nat.shiftRight_eq_div_pow]
    exact Nat.not_lt.2 hmode
  have hunit : (c.isFp && s.fpOff) = false := by
    cases hc : c.isFp
    · rfl
    · exact fpOff_of_fpOn (hfp hc)
  rw [State.csrCheck, if_neg hprivilege, if_neg (by simp [csrOf_writable hof]), hof]
  simp [hpresent, hunit]

/-! ## Bits -/

/-- One bit at a position is set there only. -/
theorem getLsbD_bitAt (n : Nat) (b : Bool) {k : Nat} (hk : k < 64) : (bitAt n b).getLsbD k = (decide (k = n) && b) := by
  cases b
  · simp [bitAt]
  · rw [bitAt, if_pos rfl, BitVec.getLsbD_shiftLeft, BitVec.getLsbD_one, Bool.eq_iff_iff]
    simp only [Bool.and_eq_true, Bool.not_eq_true', decide_eq_true_eq, decide_eq_false_iff_not, and_true]
    omega

/-- Cutting keeps the low XLEN bits. -/
theorem getLsbD_cut {xlen : Xlen} (w : Word) {k : Nat} (hk : k < xlen.bits) : (cut xlen w).getLsbD k = w.getLsbD k := by
  cases xlen
  · simp only [Xlen.bits] at hk
    simp [cut, hk, hk.trans (by decide : 32 < 64)]
  · rfl

theorem getLsbD_zext {n : Nat} (v : BitVec n) {k : Nat} (hk : k < 64) : (zext v).getLsbD k = v.getLsbD k := by
  rw [zext, BitVec.getLsbD_setWidth, decide_eq_true hk, Bool.true_and]

/-- Clearing the bits of a mask keeps the others. -/
theorem getLsbD_clear (w mask : Word) {k : Nat} (hk : k < 64) :
    (w &&& ~~~mask).getLsbD k = (w.getLsbD k && !mask.getLsbD k) := by
  rw [BitVec.getLsbD_and, BitVec.getLsbD_not, decide_eq_true hk, Bool.true_and]

/-- Clearing the m low bits of a word keeps the others. -/
theorem getLsbD_clearLow (w : Word) (m : Nat) {k : Nat} (hk : k < 64) :
    (w &&& ~~~BitVec.ofNat 64 (2 ^ m - 1)).getLsbD k = (w.getLsbD k && !decide (k < m)) := by
  rw [getLsbD_clear w _ hk, BitVec.getLsbD_ofNat, Nat.testBit_two_pow_sub_one, decide_eq_true hk, Bool.true_and]

/-- mepc and sepc hold no bit below the alignment of an instruction address (10_state.md R35). -/
theorem getLsbD_epcValue (cfg : Config) (w : Word) {k : Nat} (hk : k < cfg.xlen.bits) :
    (epcValue cfg w).getLsbD k = (w.getLsbD k && k != 0 && (k != 1 || cfg.ext.c)) := by
  have hk64 : k < 64 := hk.trans_le (xlen_bits_le _)
  rw [epcValue, getLsbD_cut _ hk]
  cases cfg.ext.c
  · refine (getLsbD_clearLow w 2 hk64).trans ?_
    rcases k with - | - | k <;> simp
  · refine (getLsbD_clearLow w 1 hk64).trans ?_
    rcases k with - | k <;> simp

/-- mtvec and stvec hold BASE as written (10_state.md R37). -/
theorem getLsbD_tvecValue_base {xlen : Xlen} (v free : Word) {k : Nat} (hk : k < xlen.bits) (h2 : 2 ≤ k) :
    (tvecValue xlen v free).getLsbD k = v.getLsbD k := by
  have hk64 : k < 64 := hk.trans_le (xlen_bits_le _)
  rw [tvecValue, getLsbD_cut _ hk, BitVec.getLsbD_or, getLsbD_bitAt _ _ hk64]
  refine (congrArg (· || _) (getLsbD_clearLow v 2 hk64)).trans ?_
  simp [Nat.not_lt.2 h2, Nat.ne_of_gt (Nat.lt_of_lt_of_le Nat.zero_lt_two h2)]

/-- mtvec and stvec hold MODE as written when that is 0 or 1 (10_state.md R37). -/
theorem getLsbD_tvecValue_mode {xlen : Xlen} (v free : Word) (h : v.getLsbD 1 = false) :
    (tvecValue xlen v free).getLsbD 0 = v.getLsbD 0 := by
  rw [tvecValue, getLsbD_cut _ (by cases xlen <;> decide), h, BitVec.getLsbD_or, getLsbD_bitAt _ _ (by decide)]
  simp

/-! ## mstatus and sstatus as a table of bits -/

/-- The first value a list gives an index: the form in which `csrBit` gives the bits of mstatus and sstatus. -/
def firstAt : List (Nat × Bool) → Nat → Option Bool
  | [], _ => none
  | (j, b) :: rest, k => if k = j then some b else firstAt rest k

/-- Where a list gives each index one value, its entries are what it gives. -/
theorem firstAt_eq_some {l : List (Nat × Bool)} (hl : (l.map Prod.fst).Nodup) {k : Nat} {b : Bool} :
    firstAt l k = some b ↔ (k, b) ∈ l := by
  induction l with
  | nil => simp [firstAt]
  | cons p rest ih =>
    obtain ⟨hp, hrest⟩ := List.nodup_cons.1 hl
    obtain ⟨j, v⟩ := p
    by_cases hk : k = j
    · subst hk
      have hnot (b : Bool) : (k, b) ∉ rest := fun h => hp (List.mem_map.2 ⟨(k, b), h, rfl⟩)
      simp [firstAt, hnot, eq_comm]
    · simp [firstAt, hk, ih hrest]

/-- The bits of mstatus (`machine`) and sstatus that the spec gives: each field at its place (10_state.md R34). -/
def statusBits (cfg : Config) (m : Mstatus) (machine : Bool) : List (Nat × Bool) :=
  [(1, m.sie), (5, m.spie), (8, m.spp), (13, (visibleFs cfg m).getLsbD 0), (14, (visibleFs cfg m).getLsbD 1),
   (cfg.xlen.bits - 1, decide (visibleFs cfg m = 3#2)), (3, machine && m.mie), (7, machine && m.mpie),
   (11, machine && m.mpp != .U), (12, machine && m.mpp == .M), (17, machine && m.mprv), (20, machine && m.tvm),
   (21, machine && m.tw), (22, machine && m.tsr)]

/-- The bits of mstatus that the spec models (10_state.md R34). -/
def statusPlaces (xlen : Xlen) : List Nat := [1, 5, 8, 13, 14, xlen.bits - 1, 3, 7, 11, 12, 17, 20, 21, 22]

/-- Both views give a bit at each of the places. -/
theorem statusBits_places (cfg : Config) (m : Mstatus) (machine : Bool) :
    (statusBits cfg m machine).map Prod.fst = statusPlaces cfg.xlen := rfl

theorem statusBits_nodup (cfg : Config) (m : Mstatus) (machine : Bool) : ((statusBits cfg m machine).map Prod.fst).Nodup := by
  rw [statusBits_places]
  cases cfg.xlen <;> decide

/-- The bits of mstatus are the entries of its table (10_state.md R34). -/
theorem csrBit_mstatus {s : State} {k : Nat} {b : Bool} :
    csrBit s .mstatus k = some b ↔ (k, b) ∈ statusBits s.cfg s.mstatus true :=
  firstAt_eq_some (statusBits_nodup _ _ _)

/-- The bits of sstatus are the entries of its table (10_state.md R34). -/
theorem csrBit_sstatus {s : State} {k : Nat} {b : Bool} :
    csrBit s .sstatus k = some b ↔ (k, b) ∈ statusBits s.cfg s.mstatus false :=
  firstAt_eq_some (statusBits_nodup _ _ _)

/-- A bit of the table is none of those whose value is free (10_state.md R34). -/
theorem mask_of_statusBits {cfg : Config} {m : Mstatus} {machine : Bool} {p : Nat × Bool} (h : p ∈ statusBits cfg m machine) :
    (mstatusMask cfg.xlen).getLsbD p.1 = true := by
  have hmask : ∀ k ∈ statusPlaces cfg.xlen, (mstatusMask cfg.xlen).getLsbD k = true := by
    cases cfg.xlen <;> decide
  exact hmask p.1 (statusBits_places cfg m machine ▸ List.mem_map_of_mem h)

/-- The places of mstatus are bits of a register. -/
theorem statusPlaces_lt {xlen : Xlen} {k : Nat} (h : k ∈ statusPlaces xlen) : k < 64 := by
  have hall : ∀ j ∈ statusPlaces xlen, j < 64 := by cases xlen <;> decide
  exact hall k h

/-- A two-bit field at a place. -/
theorem getLsbD_field (v : BitVec 2) (n : Nat) {k : Nat} (hk : k < 64) :
    (v.setWidth 64 <<< n).getLsbD k = (decide (k = n) && v.getLsbD 0 || decide (k = n + 1) && v.getLsbD 1) := by
  rw [BitVec.getLsbD_shiftLeft, BitVec.getLsbD_setWidth]
  rcases Nat.lt_or_ge k n with h | h
  · simp [h, Nat.ne_of_lt h, Nat.ne_of_lt (h.trans n.lt_succ_self)]
  · obtain ⟨j, rfl⟩ := Nat.exists_eq_add_of_le h
    rcases j with - | - | j
    · simpa using fun _ => hk
    · simp [hk]
    · simp

/-- The value of sstatus has the bits of its table (10_state.md R34). -/
theorem getLsbD_sstatusFields (cfg : Config) (m : Mstatus) :
    ∀ p ∈ statusBits cfg m false, (sstatusFields cfg m).getLsbD p.1 = p.2 := by
  intro p hp
  have hk : p.1 < 64 := statusPlaces_lt (List.mem_map_of_mem hp)
  simp only [sstatusFields, BitVec.getLsbD_or, getLsbD_bitAt _ _ hk, getLsbD_field _ _ hk]
  revert p
  unfold statusBits
  cases cfg.xlen <;> simp [Xlen.bits, beq_eq_decide]

/-- The number of a mode, bit by bit (10_state.md R39). -/
theorem getLsbD_privCode (p : Priv) : (Priv.code p).getLsbD 0 = (p != .U) ∧ (Priv.code p).getLsbD 1 = (p == .M) := by
  cases p <;> decide

/-- The value of mstatus has the bits of its table (10_state.md R34). -/
theorem getLsbD_mstatusFields (cfg : Config) (m : Mstatus) :
    ∀ p ∈ statusBits cfg m true, (mstatusFields cfg m).getLsbD p.1 = p.2 := by
  intro p hp
  have hk : p.1 < 64 := statusPlaces_lt (List.mem_map_of_mem hp)
  simp only [mstatusFields, sstatusFields, BitVec.getLsbD_or, getLsbD_bitAt _ _ hk, getLsbD_field _ _ hk]
  revert p
  obtain ⟨hmpp0, hmpp1⟩ := getLsbD_privCode m.mpp
  unfold statusBits
  cases cfg.xlen <;> simp [-BitVec.getLsbD_eq_getElem, Xlen.bits, beq_eq_decide (visibleFs cfg m), hmpp0, hmpp1]

/-! ## Reading -/

/-- The modelled bits of a CSR, made into a value, are those of the statements (10_state.md R31 to R38). -/
theorem getLsbD_csrValue {s : State} {c : Csr} {k : Nat} {b : Bool} (hk : k < s.cfg.xlen.bits) (h : csrBit s c k = some b) :
    (s.csrValue c).getLsbD k = b := by
  have hk64 : k < 64 := hk.trans_le (xlen_bits_le _)
  cases c with
  | mstatus => exact getLsbD_mstatusFields _ _ _ (csrBit_mstatus.1 h)
  | sstatus => exact getLsbD_sstatusFields _ _ _ (csrBit_sstatus.1 h)
  | mepc | sepc => exact (getLsbD_epcValue _ _ hk).trans (Option.some.inj h)
  | fflags | frm => exact (by simp [State.csrValue, hk64] : _ = _).trans (Option.some.inj h)
  | fcsr =>
    rw [← Option.some.inj h, State.csrValue, BitVec.getLsbD_setWidth, BitVec.getLsbD_append]
    simp [hk64]
  | jvt | stvec | sscratch | scause | stval | mtvec | mscratch | mcause | mtval => exact Option.some.inj h

/-- The free bits of a read of mstatus or sstatus are none of the table (10_state.md R34). -/
theorem getLsbD_unmodelledBits {s : State} {m : Mstatus} {machine : Bool} {p : Nat × Bool} (hk : p.1 < s.cfg.xlen.bits)
    (h : p ∈ statusBits s.cfg m machine) : s.unmodelledBits.getLsbD p.1 = false := by
  rw [State.unmodelledBits, getLsbD_cut _ hk, BitVec.getLsbD_and, BitVec.getLsbD_not, mask_of_statusBits h]
  simp

/-- A read gives each bit of the statements (10_state.md R31 to R38). -/
theorem getLsbD_csrRead {s : State} {c : Csr} {k : Nat} {b : Bool} (hk : k < s.cfg.xlen.bits) (h : csrBit s c k = some b) :
    (s.csrRead c).1.getLsbD k = b := by
  have hvalue := getLsbD_csrValue hk h
  cases c with
  | mstatus =>
    have hfree := getLsbD_unmodelledBits hk (csrBit_mstatus.1 h)
    rw [State.csrRead, BitVec.getLsbD_or, hvalue, hfree, Bool.or_false]
  | sstatus =>
    have hfree := getLsbD_unmodelledBits hk (csrBit_sstatus.1 h)
    rw [State.csrRead, BitVec.getLsbD_or, hvalue, hfree, Bool.or_false]
  | fflags | frm | fcsr | jvt | stvec | sscratch | sepc | scause | stval | mtvec | mscratch | mepc | mcause | mtval => exact hvalue

/-- A read changes nothing but the count of free values (10_state.md R32, R34). -/
theorem csrRead_frame (s : State) (c : Csr) : ∃ d, (s.csrRead c).2 = { s with draws := d } := by
  rcases csrRead_state s c with h | h
  · exact ⟨s.draws, h⟩
  · exact ⟨s.draws + 1, h⟩

/-! ## Writing -/

/-- The mode a value of MPP names has that value as its number; only 10 names none (10_state.md R34, R39). -/
theorem privOf_bits (code : BitVec 2) (h : (code.getLsbD 0 || !code.getLsbD 1) = true) :
    ∃ p, privOf code = some p ∧ (p != .U) = code.getLsbD 0 ∧ (p == .M) = code.getLsbD 1 := by
  have hcodes : ∀ code : BitVec 2, (code.getLsbD 0 || !code.getLsbD 1) = true →
      (privOf code).any (fun p => (p != .U) = code.getLsbD 0 ∧ (p == .M) = code.getLsbD 1) = true := by decide
  simpa [Option.any_eq_true] using hcodes code h

/-- A write of mstatus stores its fields, and MPP as written unless that is 10 (10_state.md R34). -/
theorem csrWrite_mstatus (s : State) (v : Word) :
    ∃ p d, s.csrWrite v .mstatus = { s with mstatus := writeMstatus s.cfg s.mstatus v p, draws := d }
      ∧ ((v.getLsbD 11 || !v.getLsbD 12) = true → (p != .U) = v.getLsbD 11 ∧ (p == .M) = v.getLsbD 12) := by
  have hcode := privOf_bits (v.extractLsb' 11 2)
  simp only [BitVec.getLsbD_extractLsb'] at hcode
  unfold State.csrWrite
  dsimp only
  split
  · next p hp =>
    refine ⟨p, s.draws, rfl, fun h => ?_⟩
    obtain ⟨q, hq, hbits⟩ := hcode h
    obtain rfl : p = q := Option.some.inj (hp.symm.trans hq)
    exact hbits
  · next hnone =>
    refine ⟨freePriv s.free, s.draws + 1, rfl, fun h => ?_⟩
    obtain ⟨q, hq, -⟩ := hcode h
    exact nomatch hnone.symm.trans hq

/-- Making FS Dirty touches mstatus alone (10_state.md R34). -/
theorem dirtyFs_eq (s : State) : s.dirtyFs = { s with mstatus := dirtied s } := by
  unfold State.dirtyFs dirtied
  cases s.cfg.trapDelivery <;> rfl

/-- The free value a write of mtvec or stvec may draw changes the count alone (log 5). -/
theorem drawnIf_eq (s : State) (b : Bool) : s.drawnIf b = { s with draws := (s.drawnIf b).draws } := by
  cases b <;> rfl

/-- A write changes the fields of its CSR, FS where it is one of fcsr, and the count of free values alone (10_state.md R32). -/
theorem csrWrite_onlyCsrChanged (s : State) (d : Nat) (v : Word) (c : Csr) :
    OnlyCsrChanged s (({ s with draws := d } : State).csrWrite v c) c := by
  cases c with
  | fflags | frm | fcsr =>
    unfold State.csrWrite OnlyCsrChanged
    rw [dirtyFs_eq]
    rfl
  | mstatus =>
    obtain ⟨p, d', hw, -⟩ := csrWrite_mstatus { s with draws := d } v
    rw [hw]
    rfl
  | stvec | mtvec =>
    unfold State.csrWrite OnlyCsrChanged
    rw [drawnIf_eq]
  | jvt | sstatus | sscratch | sepc | scause | stval | mscratch | mepc | mcause | mtval => rfl

/-- A CSR instruction may change rd and pc besides. -/
theorem OnlyCsrChanged.with_x_pc {s t : State} {c : Csr} (h : OnlyCsrChanged s t c) (x : Vector Word 32) (pc : Word) :
    OnlyCsrChanged s { t with x := x, pc := pc } c := by
  cases c <;> exact congrArg (fun u : State => { u with x := x, pc := pc }) h

/-- A write of sstatus stores its fields in the table and leaves the others (10_state.md R34). -/
theorem statusBits_writeSstatus {cfg : Config} {m : Mstatus} (v : Word) :
    ∀ p ∈ statusBits cfg m false, csrSpecial cfg .sstatus p.1 = false →
      (p.1, if csrStores cfg .sstatus p.1 then v.getLsbD p.1 else p.2) ∈ statusBits cfg (writeSstatus cfg m v) false := by
  unfold statusBits
  cases hx : cfg.xlen <;> cases hf : cfg.ext.f <;>
    simp [hx, hf, Xlen.bits, csrSpecial, csrStores, writeSstatus, visibleFs, writtenFs]

/-- A write of mstatus stores its fields in the table (10_state.md R34). -/
theorem statusBits_writeMstatus {cfg : Config} {m : Mstatus} (v : Word) (mpp : Priv) :
    ∀ p ∈ statusBits cfg m true, csrSpecial cfg .mstatus p.1 = false →
      (p.1, if csrStores cfg .mstatus p.1 then v.getLsbD p.1 else p.2) ∈ statusBits cfg (writeMstatus cfg m v mpp) true := by
  unfold statusBits
  cases hx : cfg.xlen <;> cases hf : cfg.ext.f <;>
    simp [hx, hf, Xlen.bits, csrSpecial, csrStores, writeSstatus, writeMstatus, visibleFs, writtenFs]

/-- A field of n bits takes those at its place and has no other. -/
theorem getLsbD_storedField {n : Nat} (v : Word) (place : Nat) (field : BitVec n) {k : Nat} :
    (v.extractLsb' place n).getLsbD k = if k < n then v.getLsbD (place + k) else field.getLsbD k := by
  rw [BitVec.getLsbD_extractLsb']
  split
  · next hk => simp [hk]
  · next hk => simp [hk, BitVec.getLsbD_of_ge field k (Nat.le_of_not_lt hk)]

/-- A write stores each bit of a field that is writable and leaves the others (10_state.md R31 to R38). -/
theorem csrBit_csrWrite {s : State} {c : Csr} {k : Nat} {b : Bool} (v : Word) (hk : k < s.cfg.xlen.bits)
    (h : csrBit s c k = some b) (hspecial : csrSpecial s.cfg c k = false) :
    csrBit (s.csrWrite v c) c k = some (if csrStores s.cfg c k then v.getLsbD k else b) := by
  cases c with
  | mstatus =>
    obtain ⟨p, d, hw, -⟩ := csrWrite_mstatus s v
    rw [hw]
    exact csrBit_mstatus.2 (statusBits_writeMstatus v p _ (csrBit_mstatus.1 h) hspecial)
  | sstatus => exact csrBit_sstatus.2 (statusBits_writeSstatus v _ (csrBit_sstatus.1 h) hspecial)
  | mtvec | stvec =>
    obtain ⟨h0, h1⟩ : k ≠ 0 ∧ k ≠ 1 := by simpa [csrSpecial] using hspecial
    rw [csrStores, bne_iff_ne.2 h0, bne_iff_ne.2 h1]
    exact congrArg some (getLsbD_tvecValue_base v _ hk (by omega))
  | mepc | sepc =>
    obtain rfl := Option.some.inj h
    refine congrArg some ((congrArg (· && k != 0 && (k != 1 || s.cfg.ext.c)) (getLsbD_epcValue s.cfg v hk)).trans ?_)
    simp only [csrStores, Bool.and_assoc]
    cases k != 0 <;> cases (k != 1 || s.cfg.ext.c) <;> simp
  | fflags =>
    obtain rfl := Option.some.inj h
    refine congrArg some ((getLsbD_storedField v 0 s.fflags).trans ?_)
    simp [csrStores]
  | frm =>
    obtain rfl := Option.some.inj h
    refine congrArg some ((getLsbD_storedField v 0 s.frm).trans ?_)
    simp [csrStores]
  | fcsr =>
    obtain rfl := Option.some.inj h
    refine congrArg some ?_
    rcases Nat.lt_or_ge k 5 with h5 | h5
    · have h8 : k < 8 := by omega
      simp [State.csrWrite, csrStores, h5, h8]
    · have hplace : 5 + (k - 5) = k := by omega
      have hfield : k - 5 < 3 ↔ k < 8 := by omega
      refine (if_neg (Nat.not_lt.2 h5)).trans ((getLsbD_storedField v 5 s.frm).trans ?_)
      simp [csrStores, Nat.not_lt.2 h5, hplace, hfield]
  | jvt | sscratch | scause | stval | mscratch | mcause | mtval => exact congrArg some (getLsbD_cut v hk)

/-- MODE of mtvec and stvec after a write (10_state.md R37). -/
theorem csrBit_csrWrite_mode {s : State} {c : Csr} (hc : c = .mtvec ∨ c = .stvec) (v : Word) :
    csrBit (s.csrWrite v c) c 1 = some false
      ∧ (v.getLsbD 1 = false → csrBit (s.csrWrite v c) c 0 = some (v.getLsbD 0)) := by
  rcases hc with rfl | rfl
  · exact ⟨congrArg some (tvecValue_mode _ _ _), fun h => congrArg some (getLsbD_tvecValue_mode _ _ h)⟩
  · exact ⟨congrArg some (tvecValue_mode _ _ _), fun h => congrArg some (getLsbD_tvecValue_mode _ _ h)⟩

/-- MPP after a write of a value that names a mode (10_state.md R34). -/
theorem csrBit_csrWrite_mpp {s : State} {v : Word} (h : (v.getLsbD 11 || !v.getLsbD 12) = true) :
    csrBit (s.csrWrite v .mstatus) .mstatus 11 = some (v.getLsbD 11)
      ∧ csrBit (s.csrWrite v .mstatus) .mstatus 12 = some (v.getLsbD 12) := by
  obtain ⟨p, d, hw, hmpp⟩ := csrWrite_mstatus s v
  obtain ⟨h11, h12⟩ := hmpp h
  rw [hw, csrBit_mstatus, csrBit_mstatus, ← h11, ← h12]
  simp [statusBits, writeMstatus]

/-! ## The instructions -/

/-- A write of a CSR leaves the integer registers and pc. -/
theorem csrWrite_x_pc (s : State) (v : Word) (c : Csr) : (s.csrWrite v c).x = s.x ∧ (s.csrWrite v c).pc = s.pc := by
  cases c with
  | mstatus =>
    obtain ⟨p, d, hw, -⟩ := csrWrite_mstatus s v
    rw [hw]
    exact ⟨rfl, rfl⟩
  | fflags | frm | fcsr | jvt | sstatus | stvec | sscratch | sepc | scause | stval | mtvec | mscratch | mepc | mcause | mtval =>
    simp [State.csrWrite]

/-- Writing rd and moving on, from a state that has the integer registers, pc and XLEN of another. -/
theorem setX_advance_eq {s t : State} (hc : t.cfg = s.cfg) (hx : t.x = s.x) (hpc : t.pc = s.pc) (rd : RegIdx) (v : Word) (n : Nat) :
    (t.setX rd v).advance n = { t with x := (s.setX rd v).x, pc := wrap s (s.pc.toNat + n) } := by
  rw [wrap_add_ofNat]
  unfold State.advance State.setX effAddr State.xlen
  split <;> simp [hc, hx, hpc]

/-- The hart after a CSR has been read and, if the instruction writes, written, before rd and pc. -/
def State.csrUpdated (s : State) (d : Nat) (c : Csr) (writes : Bool) (v : Word) : State :=
  if writes then ({ s with draws := d } : State).csrWrite v c else { s with draws := d }

/-- Up to there, the parameters, memory, the integer registers and pc are as before. -/
theorem csrUpdated_frame (s : State) (d : Nat) (c : Csr) (writes : Bool) (v : Word) :
    (s.csrUpdated d c writes v).cfg = s.cfg ∧ (s.csrUpdated d c writes v).mem = s.mem
      ∧ (s.csrUpdated d c writes v).x = s.x ∧ (s.csrUpdated d c writes v).pc = s.pc := by
  unfold State.csrUpdated
  split
  · exact ⟨(csrWrite_frame _ v c).1, (csrWrite_memory _ v c).1, csrWrite_x_pc _ v c⟩
  · exact ⟨rfl, rfl, rfl, rfl⟩

/-- All that a CSR instruction that passes its checks does (40_base_compute_system.md R173 to R178): where it does not read,
rd is x0. -/
theorem csrAccess_of_allowed {s : State} {addr : CsrAddr} {c : Csr} (h : CsrAllowed s addr c) (i : Instr) {rd : RegIdx}
    {reads : Bool} (hreads : rd ≠ 0#5 → reads = true) (writes : Bool) (newValue : Word → Word) :
    ∃ d, s.csrAccess i rd addr reads writes newValue
      = .next { s.csrUpdated d c writes (newValue (s.csrValue c)) with
          x := (s.setX rd (s.csrRead c).1).x, pc := wrap s (s.pc.toNat + 4) } := by
  have hresult (d : Nat) :
      ((s.csrUpdated d c writes (newValue (s.csrValue c))).setX rd (s.csrRead c).1).advance 4
        = { s.csrUpdated d c writes (newValue (s.csrValue c)) with
            x := (s.setX rd (s.csrRead c).1).x, pc := wrap s (s.pc.toNat + 4) } := by
    obtain ⟨hcfg, -, hx, hpc⟩ := csrUpdated_frame s d c writes (newValue (s.csrValue c))
    exact setX_advance_eq hcfg hx hpc rd _ 4
  unfold State.csrAccess
  rw [csrCheck_of_allowed h i writes]
  cases reads with
  | true =>
    obtain ⟨d, hd⟩ := csrRead_frame s c
    refine ⟨d, ?_⟩
    rw [← hresult, State.csrUpdated, ← hd]
    rfl
  | false =>
    obtain rfl : rd = 0#5 := by_contra fun h0 => Bool.false_ne_true (hreads h0)
    exact ⟨s.draws, congrArg Host.Outcome.next (hresult s.draws)⟩

/-- A CSR instruction that passes its checks has the effect of the statements, for the bits its new value has. -/
theorem csrAccess_csrEffect {s : State} {addr : CsrAddr} {c : Csr} (h : CsrAllowed s addr c) {i : Instr} {rd : RegIdx}
    {reads writes : Bool} {newValue : Word → Word} {new : Nat → Bool → Bool} (hreads : rd ≠ 0#5 → reads = true)
    (hnew : ∀ w, ∀ k < 64, (newValue w).getLsbD k = new k (w.getLsbD k)) :
    CsrEffect s (s.csrAccess i rd addr reads writes newValue) c rd writes new := by
  obtain ⟨d, hd⟩ := csrAccess_of_allowed h i hreads writes newValue
  obtain ⟨hcfg, hmem, -, -⟩ := csrUpdated_frame s d c writes (newValue (s.csrValue c))
  have hbit {k : Nat} {b : Bool} (hk : k < s.cfg.xlen.bits) (hb : csrBit s c k = some b) :
      (newValue (s.csrValue c)).getLsbD k = new k b := by
    rw [hnew _ k (hk.trans_le (xlen_bits_le _)), getLsbD_csrValue hk hb]
  have hpos {k : Nat} (hk : k < 32) : k < s.cfg.xlen.bits := by cases s.cfg.xlen <;> simp only [Xlen.bits] <;> omega
  have hget (q : RegIdx) := getX_congr (s := s.setX rd (s.csrRead c).1)
    (t := { s.csrUpdated d c writes (newValue (s.csrValue c)) with
      x := (s.setX rd (s.csrRead c).1).x, pc := wrap s (s.pc.toNat + 4) }) rfl (hcfg.trans (setX_cfg s rd _).symm) q
  refine ⟨_, hd, fun q hq => (hget q).trans (getX_setX_ne s _ hq), fun h0 k hk b hb => ?_, rfl,
    fun a => congrArg (Memory.get? · a) hmem, ?_, ?_⟩
  · rw [hget, getX_setX_same s _ h0, getLsbD_cut _ hk, getLsbD_csrRead hk hb]
  · rintro rfl
    rfl
  · rintro rfl
    refine ⟨?_, fun k hk b hb hspecial => ?_, fun hc b₀ b₁ hb₀ hb₁ => ?_, fun hc b₀ b₁ hb₀ hb₁ hmode => ?_⟩
    · exact (csrWrite_onlyCsrChanged s d _ c).with_x_pc _ _
    · rw [← hbit hk hb]
      exact csrBit_csrWrite (s := { s with draws := d }) _ hk hb hspecial
    · have hw := csrBit_csrWrite_mode (s := { s with draws := d }) hc (newValue (s.csrValue c))
      rw [hbit (hpos (by decide)) hb₀, hbit (hpos (by decide)) hb₁] at hw
      exact hw
    · subst hc
      rw [← hbit (hpos (by decide)) hb₀, ← hbit (hpos (by decide)) hb₁] at hmode ⊢
      exact csrBit_csrWrite_mpp (s := { s with draws := d }) hmode

/-- Settles O35: an address is an entry of the table, and each instruction is a CSR access whose new value has the bits stated. -/
theorem csrInstructionsComplete : Obligations.CsrInstructionsComplete := by
  refine ⟨fun addr c => csrOf_eq_some, fun row hrow rd rs1 addr c s h => ?_, fun row hrow rd uimm addr c s h => ?_⟩ <;>
    fin_cases hrow
  · show CsrEffect s (execCsrrw rd rs1 addr s) c rd true _
    exact csrAccess_csrEffect h bne_iff_ne.2 fun _ _ _ => rfl
  · show CsrEffect s (execCsrrs rd rs1 addr s) c rd (rs1 != 0#5) _
    exact csrAccess_csrEffect h (fun _ => rfl) fun _ _ _ => BitVec.getLsbD_or
  · show CsrEffect s (execCsrrc rd rs1 addr s) c rd (rs1 != 0#5) _
    exact csrAccess_csrEffect h (fun _ => rfl) fun w _ hk => getLsbD_clear w _ hk
  · show CsrEffect s (execCsrrwi rd addr uimm s) c rd true _
    exact csrAccess_csrEffect h bne_iff_ne.2 fun _ _ hk => getLsbD_zext _ hk
  · show CsrEffect s (execCsrrsi rd addr uimm s) c rd (uimm != 0#5) _
    exact csrAccess_csrEffect h (fun _ => rfl) fun _ _ hk => by rw [BitVec.getLsbD_or, getLsbD_zext _ hk]
  · show CsrEffect s (execCsrrci rd addr uimm s) c rd (uimm != 0#5) _
    exact csrAccess_csrEffect h (fun _ => rfl) fun w _ hk => by rw [getLsbD_clear w _ hk, getLsbD_zext _ hk]

end Sys2Proof.Machine
end

section
/-! Proofs about the word instructions (41_base_memory_control_rv64i.md R206 to R214, 42_m_multiply_divide.md R239 to R243): each
is its operation at width 32 on the low words. -/

namespace Sys2Proof.Machine

/-! ## What multiplication and division compute -/

theorem mulOp_computes : Computes mulOp fun _ a b => a * b := fun w a b => by
  simp [mulOp, BitVec.ofInt_mul]

/-- A divisor is zero exactly when its number is. -/
theorem eq_zero_iff_toNat {w : Nat} (b : BitVec w) : b = 0#w ↔ b.toNat = 0 := by
  rw [← BitVec.toNat_inj, BitVec.toNat_zero]

/-- All ones is the quotient by zero (42_m_multiply_divide.md R230). -/
theorem allOnes_eq_ofInt (w : Nat) : BitVec.allOnes w = BitVec.ofInt w (-1) := by
  rw [BitVec.ofInt_neg, ← BitVec.neg_one_eq_allOnes]
  rfl

/-- A value of w bits is the w-bit value of its number. -/
theorem eq_ofInt_toNat {w : Nat} (a : BitVec w) : a = BitVec.ofInt w a.toNat :=
  eq_ofInt_natCast (Nat.mod_eq_of_lt a.isLt).symm

theorem divOp_computes : Computes divOp fun n a b => if b = 0 then -1 else (signed n a).tdiv (signed n b) := fun w a b => by
  dsimp only
  rw [divOp, signed_toNat, signed_toNat, allOnes_eq_ofInt, apply_ite (BitVec.ofInt w)]
  simp only [eq_zero_iff_toNat]

theorem divuOp_computes : Computes divuOp fun _ a b => if b = 0 then -1 else (a / b : Nat) := fun w a b => by
  dsimp only
  rw [divuOp, allOnes_eq_ofInt, apply_ite (BitVec.ofInt w), BitVec.ofInt_natCast]
  simp only [eq_zero_iff_toNat]

theorem remOp_computes : Computes remOp fun n a b => if b = 0 then (a : Int) else (signed n a).tmod (signed n b) :=
    fun w a b => by
  dsimp only
  rw [remOp, signed_toNat, signed_toNat, apply_ite (BitVec.ofInt w), ← eq_ofInt_toNat]
  simp only [eq_zero_iff_toNat]

theorem remuOp_computes : Computes remuOp fun _ a b => if b = 0 then (a : Int) else (a % b : Nat) := fun w a b => by
  dsimp only
  rw [remuOp, apply_ite (BitVec.ofInt w), ← eq_ofInt_toNat, BitVec.ofInt_natCast]
  simp only [eq_zero_iff_toNat]

/-! ## The instructions -/

section
variable {s : State} {n : Nat} {rd rs1 rs2 : RegIdx}

/-- A word instruction, from what its operation computes on the low words: the 32-bit result, sign-extended. -/
theorem aluWord_writesX {op : BitVec 32 → BitVec 32 → BitVec 32} {a b : Word} {z : Int}
    (h : op (a.setWidth 32) (b.setWidth 32) = BitVec.ofInt 32 z) :
    WritesX s (s.aluWord n rd op a b) n rd (wrap s (Int.bmod z (2 ^ 32))) := by
  refine writesX_writeX ?_
  rw [word2, h, State.xlen, sext, cut_cut, ← sext, sext_eq_wrap, BitVec.toInt_ofInt]

/-- The low word of a register, as a number. -/
theorem toNat_setWidth32_getX (s : State) (r : RegIdx) :
    ((s.getX r).setWidth 32).toNat = uval s r % 2 ^ 32 := BitVec.toNat_setWidth ..

/-- A word instruction on two registers, from what its operation computes of two 32-bit numbers. -/
theorem aluWord_registers {op : BitVec 32 → BitVec 32 → BitVec 32} {spec : Nat → Nat → Int}
    (h : ∀ a b, op a b = BitVec.ofInt 32 (spec a.toNat b.toNat)) :
    WritesX s (s.aluWord n rd op (s.getX rs1) (s.getX rs2)) n rd
      (wrap s (Int.bmod (spec (uval s rs1 % 2 ^ 32) (uval s rs2 % 2 ^ 32)) (2 ^ 32))) :=
  aluWord_writesX (by rw [h, toNat_setWidth32_getX, toNat_setWidth32_getX])

/-- A word instruction on a register and a shift amount, which is below 32. -/
theorem aluWord_shamt {op : BitVec 32 → BitVec 32 → BitVec 32} {spec : Nat → Nat → Int}
    (h : ∀ a b, op a b = BitVec.ofInt 32 (spec a.toNat (b.toNat % 32))) (shamt : BitVec 5) :
    WritesX s (s.aluWord n rd op (s.getX rs1) (zext shamt)) n rd
      (wrap s (Int.bmod (spec (uval s rs1 % 2 ^ 32) shamt.toNat) (2 ^ 32))) := by
  have hshamt : ((zext shamt).setWidth 32).toNat % 32 = shamt.toNat := by
    simp only [zext, BitVec.toNat_setWidth]
    omega
  exact aluWord_writesX (by rw [h, toNat_setWidth32_getX, hshamt])

/-- The low word of a sign-extended immediate is the immediate in 32 bits (00_scope.md R9). -/
theorem setWidth32_sext (xlen : Xlen) (imm : BitVec 12) : (sext xlen imm).setWidth 32 = imm.signExtend 32 := by
  have h32 : 32 ≤ xlen.bits := by cases xlen <;> decide
  rw [← BitVec.setWidth_setWidth_of_le (sext xlen imm) h32, setWidth_sext]
  exact setWidth_ofInt h32 _

/-- addiw adds its immediate (41_base_memory_control_rv64i.md R206). -/
theorem addiw_writesX (imm : BitVec 12) :
    WritesX s (exec (.addiw rd rs1 imm) s) 4 rd (wrap s (Int.bmod (uval s rs1 + imm.toInt) (2 ^ 32))) := by
  refine aluWord_writesX ?_
  rw [State.xlen, setWidth32_sext, addOp, BitVec.ofInt_add, BitVec.ofInt_natCast]
  rfl

end

/-- Settles O18: each instruction writes what its operation computes at width 32 of the numbers of the low words. -/
theorem wordInstructionsComplete : Obligations.WordInstructionsComplete := by
  refine ⟨fun row hrow rd rs1 rs2 s => ?_, fun rd rs1 imm s => addiw_writesX imm, fun row hrow rd rs1 shamt s => ?_⟩ <;>
    fin_cases hrow
  · exact aluWord_registers (addOp_computes 32)
  · exact aluWord_registers (subOp_computes 32)
  · exact aluWord_registers (sllOp_computes 32)
  · exact aluWord_registers (srlOp_computes 32)
  · exact aluWord_registers (sraOp_computes 32)
  · exact aluWord_registers (mulOp_computes 32)
  · exact aluWord_registers (divOp_computes 32)
  · exact aluWord_registers (divuOp_computes 32)
  · exact aluWord_registers (remOp_computes 32)
  · exact aluWord_registers (remuOp_computes 32)
  · exact aluWord_shamt (sllOp_computes 32) shamt
  · exact aluWord_shamt (srlOp_computes 32) shamt
  · exact aluWord_shamt (spec := fun a k => signed 32 a / 2 ^ k) (sraOp_computes 32) shamt

end Sys2Proof.Machine
end

section
/-! Proofs about the loads and stores that reach memory (41_base_memory_control_rv64i.md R190 to R197, R215 to R217; 20_memory.md
R61, R62). -/

namespace Sys2Proof.Machine

/-! ## Loads -/

section
variable {s : State} {n w v : Nat} {rd : RegIdx} {addr : Word}

/-- A load of bytes that are mapped and hold a number writes what it makes of the number (20_memory.md R61). -/
theorem loadX_writesX {ext : Word → Word} {value : Word} (hvalue : cut s.cfg.xlen (ext (BitVec.ofNat 64 v)) = value)
    (ha : AlignedOrEmulated s addr w) (hm : Mapped s .load addr w) (hv : Holds s addr w v) :
    WritesX s (s.loadX n rd addr w ext) n rd value := by
  rw [State.loadX, load_eq_peek ha hm, peek_of_holds hv]
  exact writesX_writeX hvalue

/-- A load that zero-extends (41_base_memory_control_rv64i.md R193, R194, R215, R216). -/
theorem loadX_unsigned (ha : AlignedOrEmulated s addr w) (hm : Mapped s .load addr w) (hv : Holds s addr w v) :
    WritesX s (s.loadX n rd addr w id) n rd (wrap s v) :=
  loadX_writesX (wrap_natCast s v).symm ha hm hv

/-- The low m bits of a number, read as signed. -/
theorem toInt_setWidth_ofNat {m : Nat} (hm : m ≤ 64) (v : Nat) : ((BitVec.ofNat 64 v).setWidth m).toInt = signed m v := by
  rw [BitVec.setWidth_ofNat_of_le hm, BitVec.toInt_ofNat']
  rfl

/-- A load that sign-extends the bits it reads (41_base_memory_control_rv64i.md R190 to R192). -/
theorem loadX_signed (h64 : 8 * w ≤ 64) (ha : AlignedOrEmulated s addr w) (hm : Mapped s .load addr w)
    (hv : Holds s addr w v) :
    WritesX s (s.loadX n rd addr w fun u => sext s.xlen (u.setWidth (8 * w))) n rd (wrap s (signed (8 * w) v)) := by
  refine loadX_writesX ?_ ha hm hv
  rw [State.xlen, sext, cut_cut, ← sext, sext_eq_wrap, toInt_setWidth_ofNat h64]

/-- A load that sign-extends the bits it reads, or else zero-extends them. -/
theorem loadX_extended {signExtends : Bool} {ext : Word → Word} (h64 : 8 * w ≤ 64)
    (hext : ∀ u, ext u = if signExtends then sext s.xlen (u.setWidth (8 * w)) else u) (ha : AlignedOrEmulated s addr w)
    (hm : Mapped s .load addr w) (hv : Holds s addr w v) :
    WritesX s (s.loadX n rd addr w ext) n rd (wrap s (if signExtends then signed (8 * w) v else v)) := by
  rw [funext hext]
  cases signExtends
  · exact loadX_unsigned ha hm hv
  · exact loadX_signed h64 ha hm hv

end

/-- A single byte is aligned at every address (20_memory.md R64). -/
theorem alignedOrEmulated_byte (s : State) (addr : Word) : AlignedOrEmulated s addr 1 := .inl (Nat.mod_one _)

/-- Settles O23: each load is a load of its width that zero- or sign-extends. -/
theorem loadsComplete : Obligations.LoadsComplete := by
  refine ⟨fun row hrow rd rs1 imm s v => ?_, fun rd rs1 uimm s v => ⟨?_, ?_⟩, fun rd uimm s v => ⟨?_, ?_⟩,
    fun rd rs1 s v => ⟨fun uimm => ?_, fun uimm => ?_⟩⟩
  · fin_cases hrow <;> exact loadX_extended (by decide) fun _ => rfl
  · exact loadX_signed (by decide)
  · exact loadX_unsigned
  · exact loadX_signed (by decide)
  · exact loadX_unsigned
  · exact loadX_unsigned (alignedOrEmulated_byte s _)
  · exact fun ha hm hv => ⟨loadX_unsigned ha hm hv, loadX_signed (by decide) ha hm hv⟩

/-! ## Stores -/

section
variable {s : State} {addr : Word} {w : Nat} {v : Word}

/-- The bytes of a value are its digits to base 256, the lowest first (20_memory.md R62). -/
theorem wordBytes_eq_digits (v : Word) (w : Nat) :
    wordBytes v w = (List.range w).map fun k => BitVec.ofNat 8 (v.toNat / 256 ^ k) := by
  refine List.map_congr_left fun k _ => ?_
  rw [BitVec.extractLsb', Nat.shiftRight_eq_div_pow, Nat.pow_mul]

/-- The bytes a store writes, each with its address (20_memory.md R61, R62). -/
def storedBytes (s : State) (addr : Word) (w : Nat) (v : Word) : List (Nat × Byte) :=
  (List.range w).map fun k => (byteAddr s addr k, BitVec.ofNat 8 (v.toNat / 256 ^ k))

/-- A store is the writing of those bytes (20_memory.md R61). -/
theorem poke_eq_putBytes (s : State) (addr : Word) (w : Nat) (v : Word) :
    s.poke addr w v = s.putBytes (storedBytes s addr w v) := by
  rw [State.poke, accessAddrs_eq, wordBytes_eq_digits, List.zip_map', storedBytes]

/-- The bytes of an access no longer than the address space have different addresses (20_memory.md R71). -/
theorem byteAddr_injOn (hw : w ≤ 2 ^ s.cfg.xlen.bits) {j k : Nat} (hj : j < w) (hk : k < w)
    (h : byteAddr s addr j = byteAddr s addr k) : j = k :=
  Nat.ModEq.eq_of_lt_of_lt (Nat.ModEq.add_left_cancel' _ h) (hj.trans_le hw) (hk.trans_le hw)

/-- The addresses that a store writes to are different. -/
theorem storedBytes_nodup (hw : w ≤ 2 ^ s.cfg.xlen.bits) : ((storedBytes s addr w v).map Prod.fst).Nodup := by
  rw [storedBytes, List.map_map]
  exact List.nodup_range.map_on fun j hj k hk => byteAddr_injOn hw (List.mem_range.1 hj) (List.mem_range.1 hk)

/-- Where bytes are stored at different addresses, each reads as stored (20_memory.md R70). -/
theorem putBytes_get?_of_mem {s : State} {l : List (Nat × Byte)} (hl : (l.map Prod.fst).Nodup) {a : Nat} {b : Byte}
    (h : (a, b) ∈ l) : Memory.get? (s.putBytes l).mem a = some b := by
  induction l generalizing s with
  | nil => nomatch h
  | cons p rest ih =>
    obtain ⟨hnew, hrest⟩ := List.nodup_cons.1 hl
    rcases List.mem_cons.1 h with rfl | h
    · exact (putBytes_get?_ne _ rest fun q hq hqa => hnew (List.mem_map.2 ⟨q, hq, hqa.symm⟩)).trans (get?_set_same _ _ _)
    · exact ih hrest h

/-- A store writes the bytes of its value, leaves every other one, and makes those it writes stale (20_memory.md R61, R62). -/
theorem poke_stored (hw : w ≤ 2 ^ s.cfg.xlen.bits) : Stored s (s.poke addr w v) addr w v.toNat := by
  rw [poke_eq_putBytes]
  refine ⟨fun k hk => ?_, fun a ha => ?_, fun a => ?_⟩
  · exact putBytes_get?_of_mem (storedBytes_nodup hw) (List.mem_map_of_mem (List.mem_range.2 hk))
  · refine putBytes_get?_ne s _ fun p hp => ?_
    obtain ⟨k, hk, rfl⟩ := List.mem_map.1 hp
    exact ha k (List.mem_range.1 hk)
  · rw [putBytes_stale]
    simp [storedBytes, eq_comm]

/-- A store that is mapped and raises no misalignment writes its bytes and moves on, and does nothing else (20_memory.md R61). -/
theorem storeX_storesBytes {n : Nat} (hw : w ≤ 2 ^ 32) (ha : AlignedOrEmulated s addr w) (hm : Mapped s .store addr w) :
    StoresBytes s (s.storeX n addr w v) n addr w v.toNat := by
  have hspace : w ≤ 2 ^ s.cfg.xlen.bits := hw.trans (Nat.pow_le_pow_right (by decide) (by cases s.cfg.xlen <;> decide))
  refine ⟨_, storeX_of_mapped ha hm, poke_stored hspace, ?_, ?_⟩
  · rw [advance_pc, poke_cfg, poke_pc, wrap_add_ofNat]
    rfl
  · rw [State.poke, putBytes_frame]
    rfl

end

/-- Settles O24: each store is a store of its width, of the register it names. -/
theorem storesComplete : Obligations.StoresComplete := by
  refine ⟨fun row hrow rs1 rs2 imm s => ?_, fun rs1 rs2 uimm s => ⟨?_, ?_⟩, fun rs2 uimm s => ⟨?_, ?_⟩,
    fun rs1 rs2 s => ⟨fun uimm => ?_, fun uimm => ?_⟩⟩
  · fin_cases hrow <;> exact storeX_storesBytes (by decide)
  · exact storeX_storesBytes (by decide)
  · exact storeX_storesBytes (by decide)
  · exact storeX_storesBytes (by decide)
  · exact storeX_storesBytes (by decide)
  · exact storeX_storesBytes (by decide) (alignedOrEmulated_byte s _)
  · exact storeX_storesBytes (by decide)

end Sys2Proof.Machine
end

section
/-! Proofs about the jumps and branches whose target is an instruction address (41_base_memory_control_rv64i.md R198 to R205;
46_c_compressed.md R406, R420 to R422, R428, R431). -/

namespace Sys2Proof.Machine

/-! ## Targets -/

/-- The offset of a jump stands for twice its field: the encoding leaves out bit 0 (41_base_memory_control_rv64i.md R198,
46_c_compressed.md R392). -/
theorem toInt_append_zero {m : Nat} (imm : BitVec m) : (imm ++ 0#1).toInt = imm.toInt * 2 := by
  rw [BitVec.toInt_append]
  cases m with
  | zero => simp [BitVec.of_length_zero]
  | succ m => simp [mul_comm]

/-- The target of a jump relative to pc (20_memory.md R71). -/
theorem relativeTarget_eq (s : State) {m : Nat} (imm : BitVec m) :
    effAddr s.xlen s.pc (sext s.xlen (imm ++ 0#1)) = wrap s (s.pc.toNat + imm.toInt * 2) := by
  rw [State.xlen, sext_eq_wrap, effAddr_wrap, toInt_append_zero]

/-- Clearing bit 0 of a word rounds its number down to an even one. -/
theorem clear_bit_zero_toNat (w : Word) : (w &&& ~~~1#64).toNat = w.toNat / 2 * 2 := and_not_lowBits_toNat w 1

/-- Clearing bit 0 of the word of an integer rounds the integer down to an even one (41_base_memory_control_rv64i.md R199). -/
theorem wrap_clear_bit_zero (s : State) (z : Int) : wrap s z &&& ~~~1#64 = wrap s (z / 2 * 2) := by
  apply BitVec.eq_of_toNat_eq
  rw [clear_bit_zero_toNat, wrap, wrap, BitVec.toNat_ofNat, BitVec.toNat_ofNat]
  cases s.cfg.xlen <;> simp only [Xlen.bits] <;> omega

/-- The target of a jump through a register and an immediate (41_base_memory_control_rv64i.md R199). -/
theorem immediateTarget_eq (s : State) (rs1 : RegIdx) (imm : BitVec 12) :
    effAddr s.xlen (s.getX rs1) (sext s.xlen imm) &&& ~~~1#64 = wrap s ((uval s rs1 + imm.toInt) / 2 * 2) := by
  rw [State.xlen, sext_eq_wrap, effAddr_wrap, wrap_clear_bit_zero]
  rfl

/-- The target of a jump through a register (46_c_compressed.md R428, R431). -/
theorem registerTarget_eq (s : State) (rs1 : RegIdx) : s.getX rs1 &&& ~~~1#64 = BitVec.ofNat 64 (uval s rs1 / 2 * 2) := by
  rw [uval, ← clear_bit_zero_toNat, BitVec.ofNat_toNat, BitVec.setWidth_eq]

/-! ## Jumps -/

section
variable {s : State} {n : Nat} {rd : RegIdx} {target : Word}

/-- What every register reads after a write of one (10_state.md R20, R21). -/
theorem getX_setX (s : State) (rd : RegIdx) (v : Word) (q : RegIdx) :
    (s.setX rd v).getX q = if q = rd ∧ rd ≠ 0#5 then cut s.cfg.xlen v else s.getX q := by
  by_cases hq : q = rd
  · subst hq
    by_cases h0 : q = 0#5
    · simp [h0]
    · rw [getX_setX_same s v h0, if_pos ⟨rfl, h0⟩]
  · rw [getX_setX_ne s v hq, if_neg fun hc => hq hc.1]

/-- Writing the address after the instruction to the link register and moving pc, and no more, is a linking jump. -/
theorem jumpsLinking_setX (s : State) (n : Nat) (rd : RegIdx) (target : Word) :
    JumpsLinking s (.next { s.setX rd (effAddr s.cfg.xlen s.pc (BitVec.ofNat 64 n)) with pc := target }) n rd target := by
  refine ⟨_, rfl, fun q => ?_, rfl, fun a => ?_, ?_⟩
  · refine (getX_setX s rd _ q).trans ?_
    rw [effAddr, cut_cut, ← effAddr, wrap_add_ofNat]
    rfl
  · exact congrArg (Memory.get? · a) (setX_mem s rd _)
  · unfold State.setX
    split <;> rfl

/-- A jump to an instruction address completes (60_exceptions.md R601). -/
theorem jumpLink_jumpsLinking (haligned : target.toNat % s.cfg.ext.ialignBytes = 0) :
    JumpsLinking s (s.jumpLink n rd target) n rd target := by
  rw [State.jumpLink, jumpTo_ok.2 ⟨haligned, rfl⟩]
  simp only [setX_withPc]
  exact jumpsLinking_setX s n rd target

end

/-- Settles O26: the two jumps of 4 bytes pass the check of their targets, and those of 2 bytes make none. -/
theorem jumpsComplete : Obligations.JumpsComplete := by
  refine ⟨fun rd rs1 imm20 imm12 s => ⟨?_, ?_⟩, fun rs1 imm s _ => ⟨?_, ?_, ?_, ?_⟩⟩
  · intro target haligned
    show JumpsLinking s (execJal rd imm20 s) 4 rd target
    rw [execJal, relativeTarget_eq]
    exact jumpLink_jumpsLinking haligned
  · intro target haligned
    show JumpsLinking s (execJalr rd rs1 imm12 s) 4 rd target
    rw [execJalr, immediateTarget_eq]
    exact jumpLink_jumpsLinking haligned
  · rw [← relativeTarget_eq]
    rfl
  · rw [← relativeTarget_eq]
    exact jumpsLinking_setX s 2 1#5 _
  · rw [← registerTarget_eq]
    rfl
  · rw [← registerTarget_eq]
    exact jumpsLinking_setX s 2 1#5 _

/-! ## Branches -/

theorem eqTest_decides : Decides eqTest fun _ a b => a == b := fun w a b => by
  rw [eqTest, Bool.eq_iff_iff, beq_iff_eq, beq_iff_eq, BitVec.toNat_inj]

section
variable {s : State} {n : Nat} {cond : Bool} {offset : Word}

/-- A test of two registers, as a function of their unsigned readings. -/
theorem test2_registers {test : ∀ w, BitVec w → BitVec w → Bool} {spec : Nat → Nat → Nat → Bool} (h : Decides test spec)
    (s : State) (rs1 rs2 : RegIdx) :
    test2 s.xlen test (s.getX rs1) (s.getX rs2) = spec s.cfg.xlen.bits (uval s rs1) (uval s rs2) := by
  rw [test2_eq, h, State.xlen, uval_eq, uval_eq]

/-- A branch whose condition holds goes to an instruction address (41_base_memory_control_rv64i.md R200). -/
theorem branch_taken (h : cond = true) (haligned : (effAddr s.cfg.xlen s.pc offset).toNat % s.cfg.ext.ialignBytes = 0) :
    MovesPc s (s.branch n cond offset) (effAddr s.cfg.xlen s.pc offset) := by
  rw [State.branch, if_pos h, jumpTo_ok.2 ⟨haligned, rfl⟩]
  rfl

/-- A branch whose condition does not hold moves past itself (41_base_memory_control_rv64i.md R200). -/
theorem branch_not_taken (h : cond = false) : MovesPc s (s.branch n cond offset) (wrap s (s.pc.toNat + n)) := by
  rw [State.branch, h]
  exact movesPc_advance s n

/-- A branch completes as its condition says, its offset twice its field (41_base_memory_control_rv64i.md R200 to R205). -/
theorem branch_completes {m : Nat} {imm : BitVec m} {p : Bool} (h : cond = p) :
    (p = true → (wrap s (s.pc.toNat + imm.toInt * 2)).toNat % s.cfg.ext.ialignBytes = 0 →
      MovesPc s (s.branch n cond (sext s.xlen (imm ++ 0#1))) (wrap s (s.pc.toNat + imm.toInt * 2)))
    ∧ (p = false → MovesPc s (s.branch n cond (sext s.xlen (imm ++ 0#1))) (wrap s (s.pc.toNat + n))) := by
  subst h
  rw [← relativeTarget_eq]
  exact ⟨branch_taken, branch_not_taken⟩

/-- The test of c.beqz and c.bnez (46_c_compressed.md R421, R422). -/
theorem eqTest_zero (s : State) (r : RegIdx) : test2 s.xlen eqTest (s.getX r) 0#64 = decide (uval s r = 0) :=
  test2_registers eqTest_decides s r 0#5

/-- A compressed branch goes to its target or past itself, without a check of the target (log 13). -/
theorem movesPc_ite (s : State) (imm : BitVec 8) {p : Prop} [Decidable p] :
    MovesPc s (.next (if p then { s with pc := effAddr s.xlen s.pc (sext s.xlen (imm ++ 0#1)) } else s.advance 2))
      (if p then wrap s (s.pc.toNat + imm.toInt * 2) else wrap s (s.pc.toNat + 2)) := by
  split
  · rw [relativeTarget_eq]
    rfl
  · exact movesPc_advance s 2

end

/-- Settles O27: each condition is the one of the statement, and the branch follows it. -/
theorem branchesComplete : Obligations.BranchesComplete := by
  refine ⟨fun row hrow rs1 rs2 imm s => ?_, fun rs1 imm s _ => ⟨?_, ?_⟩⟩
  · fin_cases hrow
    · exact branch_completes (test2_registers eqTest_decides s rs1 rs2)
    · exact branch_completes (congrArg not (test2_registers eqTest_decides s rs1 rs2))
    · exact branch_completes (test2_registers ltSigned_decides s rs1 rs2)
    · exact branch_completes (by rw [test2_registers ltSigned_decides s rs1 rs2, ← decide_not]; simp)
    · exact branch_completes (test2_registers ltUnsigned_decides s rs1 rs2)
    · exact branch_completes (by rw [test2_registers ltUnsigned_decides s rs1 rs2, ← decide_not]; simp)
  · show MovesPc s (execCBeqz rs1 imm s) _
    rw [execCBeqz, eqTest_zero]
    simpa using movesPc_ite s imm (p := uval s (creg rs1) = 0)
  · show MovesPc s (execCBnez rs1 imm s) _
    rw [execCBnez, eqTest_zero]
    simpa using movesPc_ite s imm (p := ¬uval s (creg rs1) = 0)

end Sys2Proof.Machine
end

section
/-! Proofs about the multiplications and divisions (42_m_multiply_divide.md R230 to R238): the high halves of the products, which are
exact integers; the low half and the divisions are the operations of the word instructions, here at width XLEN. -/

namespace Sys2Proof.Machine

/-! ## What the high halves compute -/

theorem mulhOp_computes : Computes mulhOp fun n a b => signed n a * signed n b / 2 ^ n := fun w a b => by
  dsimp only
  rw [signed_toNat, signed_toNat, mulhOp, highHalf]

theorem mulhsuOp_computes : Computes mulhsuOp fun n a b => signed n a * b / 2 ^ n := fun w a b => by
  dsimp only
  rw [signed_toNat, mulhsuOp, highHalf]

theorem mulhuOp_computes : Computes mulhuOp fun n a b => (a * b / 2 ^ n : Nat) := fun w a b => by
  dsimp only
  rw [mulhuOp, highHalf]
  push_cast
  rfl

/-! ## The obligation -/

/-- Settles O19: each instruction writes what its operation computes at width XLEN of the numbers of its operands; the zero divisor
is the first branch of the operation, and signed overflow the wrapping of an exact quotient. -/
theorem multiplyAndDivideComplete : Obligations.MultiplyAndDivideComplete := by
  intro row hrow rd rs1 rs2 s
  fin_cases hrow
  · exact alu2_registers mulOp_computes
  · exact alu2_registers mulhOp_computes
  · exact alu2_registers mulhsuOp_computes
  · exact alu2_registers mulhuOp_computes
  · exact alu2_registers divOp_computes
  · exact alu2_registers divuOp_computes
  · exact alu2_registers remOp_computes
  · exact alu2_registers remuOp_computes

end Sys2Proof.Machine
end

section
/-! Proofs about the atomic instructions (43_a_atomic.md R250 to R275): lr, sc and the atomic memory operations where they complete,
and the ordering bits. -/

namespace Sys2Proof.Machine

/-! ## Writing a register, and more -/

section
variable {s u : State} {n : Nat} {rd : RegIdx} {v value : Word}

/-- The registers after an instruction that also writes something other than registers (10_state.md R20, R21). -/
theorem getX_writeX_of_agree (hcfg : u.cfg = s.cfg) (hx : u.x = s.x) (hv : cut s.cfg.xlen v = value) (q : RegIdx) :
    (u.writeX n rd v).getX q = if q = rd ∧ rd ≠ 0#5 then value else s.getX q := by
  rw [getX_writeX_eq, getX_setX, hcfg, hv, getX_congr hx hcfg]

/-- pc after an instruction that also writes something other than pc (10_state.md R26). -/
theorem writeX_pc_of_agree (hcfg : u.cfg = s.cfg) (hpc : u.pc = s.pc) : (u.writeX n rd v).pc = wrap s (s.pc.toNat + n) := by
  rw [writeX_pc, hcfg, hpc, wrap_add_ofNat, effAddr, State.xlen]

/-- Writing an integer register and moving on changes x and pc alone. -/
theorem writeX_frame (s : State) (n : Nat) (rd : RegIdx) (v : Word) :
    s.writeX n rd v = { s with x := (s.writeX n rd v).x, pc := (s.writeX n rd v).pc } := by
  unfold State.writeX State.setX
  split <;> rfl

/-- A store changes memory and the fetch-coherence set alone (20_memory.md R61, 10_state.md R42). -/
theorem poke_frame (s : State) (addr : Word) (n : Nat) (v : Word) :
    s.poke addr n v = { s with mem := (s.poke addr n v).mem, stale := (s.poke addr n v).stale } :=
  putBytes_frame s _

/-- The free value that an sc may draw changes the count of free values alone (log 5). -/
theorem scDrawn_frame (s : State) (addr : Word) (n : Nat) :
    s.scDrawn addr n = { s with draws := (s.scDrawn addr n).draws } := by
  unfold State.scDrawn
  split <;> rfl

end

/-! ## Stored bytes -/

/-- `Stored` reads nothing of the two states but XLEN, memory and the fetch-coherence set. -/
theorem Stored.of_agree {s s' t t' : State} {addr : Word} {w v : Nat} (h : Stored s t addr w v) (hcfg : s'.cfg = s.cfg)
    (hmem : s'.mem = s.mem) (hstale : s'.stale = s.stale) (htmem : t'.mem = t.mem) (htstale : t'.stale = t.stale) :
    Stored s' t' addr w v := by
  simpa only [Stored, byteAddr, hcfg, hmem, hstale, htmem, htstale] using h

/-- A byte of a number depends on the bytes up to it only (20_memory.md R62). -/
theorem byte_of_modEq {v v' w k : Nat} (h : v ≡ v' [MOD 256 ^ w]) (hk : k < w) :
    BitVec.ofNat 8 (v / 256 ^ k) = BitVec.ofNat 8 (v' / 256 ^ k) := by
  have hlow : v % (256 ^ k * 256) = v' % (256 ^ k * 256) := h.of_dvd (pow_dvd_pow 256 hk)
  apply BitVec.eq_of_toNat_eq
  rw [BitVec.toNat_ofNat, BitVec.toNat_ofNat]
  calc v / 256 ^ k % 256 = v % (256 ^ k * 256) / 256 ^ k := (Nat.mod_mul_right_div_self ..).symm
    _ = v' % (256 ^ k * 256) / 256 ^ k := by rw [hlow]
    _ = v' / 256 ^ k % 256 := Nat.mod_mul_right_div_self ..

/-- A store of w bytes stores any number with the same low bytes (20_memory.md R61). -/
theorem Stored.of_modEq {s t : State} {addr : Word} {w v v' : Nat} (h : Stored s t addr w v) (hv : v ≡ v' [MOD 256 ^ w]) :
    Stored s t addr w v' := by
  obtain ⟨hbytes, hrest, hstale⟩ := h
  exact ⟨fun k hk => (hbytes k hk).trans (congrArg some (byte_of_modEq hv hk)), hrest, hstale⟩

/-- An atomic access is shorter than the address space (43_a_atomic.md R250, 20_memory.md R60). -/
theorem atomic_le_space {w : Nat} (hw : w = 4 ∨ w = 8) (xlen : Xlen) : w ≤ 2 ^ xlen.bits := by
  rcases hw with rfl | rfl <;> cases xlen <;> decide

/-! ## Load-reserved -/

section
variable {s : State} {w a : Nat} {rd : RegIdx} {addr : Word}

/-- What lr and the atomic operations write to rd is the number read, sign-extended (43_a_atomic.md R250). -/
theorem cut_atomicValue (hw : w = 4 ∨ w = 8) (s : State) (a : Nat) :
    cut s.cfg.xlen (atomicValue s.xlen w (BitVec.ofNat 64 a)) = wrap s (signed (8 * w) a) := by
  have hsext : cut s.cfg.xlen (atomicValue s.xlen w (BitVec.ofNat 64 a))
      = sext s.cfg.xlen ((BitVec.ofNat 64 a).setWidth (8 * w)) := by
    rcases hw with rfl | rfl
    · exact cut_cut _ _
    · simp [atomicValue, sext]
  rw [hsext, sext_eq_wrap, toInt_setWidth_ofNat (by omega)]

/-- An lr that passes its checks and reads a number (43_a_atomic.md R250, R251). -/
theorem loadReserved_of_holds (ha : addr.toNat % w = 0) (hm : Mapped s .load addr w) (hv : Holds s addr w a) :
    s.loadReserved rd addr w
      = .next { s.writeX 4 rd (atomicValue s.xlen w (BitVec.ofNat 64 a)) with reservation := some ⟨addr, w⟩ } := by
  rw [State.loadReserved, checkAccess_strict_of_mapped ha hm, peek_of_holds hv]
  rfl

/-- The outcome of an lr that completes (43_a_atomic.md R250, R251). -/
def Reserves (s : State) (r : Result) (rd : RegIdx) (addr : Word) (w a : Nat) : Prop :=
  ∃ t, r = .next t
    ∧ (∀ q, t.getX q = if q = rd ∧ rd ≠ 0#5 then wrap s (signed (8 * w) a) else s.getX q)
    ∧ t.reservation = some ⟨addr, w⟩
    ∧ t.pc = wrap s (s.pc.toNat + 4)
    ∧ SameMemory s t
    ∧ t = { s with x := t.x, pc := t.pc, reservation := t.reservation }

/-- An lr writes rd and makes the reservation, and does nothing else (43_a_atomic.md R250, R251). -/
theorem loadReserved_reserves (hw : w = 4 ∨ w = 8) (ha : addr.toNat % w = 0) (hm : Mapped s .load addr w)
    (hv : Holds s addr w a) : Reserves s (s.loadReserved rd addr w) rd addr w a := by
  refine ⟨_, loadReserved_of_holds ha hm hv, ?_, rfl, ?_, fun b => ?_, ?_⟩
  · exact getX_writeX_of_agree (n := 4) rfl rfl (cut_atomicValue hw s a)
  · exact writeX_pc_of_agree rfl rfl
  · exact congrArg (Memory.get? · b) (writeX_mem s 4 ..)
  · rw [writeX_frame]

end

/-- Settles O37: both instructions are the load-reserved of their width. -/
theorem loadReservedCompletes : Obligations.LoadReservedCompletes := by
  intro row hrow rd rs1 aq rl s v
  fin_cases hrow
  · exact loadReserved_reserves (.inl rfl)
  · exact loadReserved_reserves (.inr rfl)

/-! ## Store-conditional -/

section
variable {s : State} {w : Nat} {rd : RegIdx} {addr v : Word}

/-- An sc whose reservation is there, and which may not fail by itself, succeeds (43_a_atomic.md R251, 20_memory.md R81). -/
theorem scSucceeds_of_reservation (hr : s.reservation = some ⟨addr, w⟩) (hspurious : s.cfg.scMayFailSpuriously = false) :
    s.scSucceeds addr w = true := by
  simp [State.scSucceeds, State.reserved, hr, hspurious]

/-- An sc succeeds only when its reservation is there (43_a_atomic.md R251). -/
theorem reservation_of_scSucceeds (h : s.scSucceeds addr w = true) : s.reservation = some ⟨addr, w⟩ :=
  beq_iff_eq.1 (Bool.and_eq_true_iff.1 h).1

/-- The state after an sc that succeeds. -/
def scStored (s : State) (rd : RegIdx) (addr : Word) (w : Nat) (v : Word) : State :=
  { ((s.scDrawn addr w).poke addr w v).writeX 4 rd 0#64 with reservation := none }

/-- The state after an sc that fails. -/
def scFailed (s : State) (rd : RegIdx) (addr : Word) (w : Nat) : State :=
  { (s.scDrawn addr w).writeX 4 rd 1#64 with reservation := none }

/-- An sc that passes its checks stores or fails (43_a_atomic.md R250, R251). -/
theorem storeConditional_of_mapped (ha : addr.toNat % w = 0) (hm : Mapped s .atomic addr w) :
    s.storeConditional rd addr w v
      = .next (if s.scSucceeds addr w then scStored s rd addr w v else scFailed s rd addr w) := by
  rw [State.storeConditional, checkAccess_strict_of_mapped ha hm]
  cases s.scSucceeds addr w <;> rfl

/-- The store of an sc is made, and rd says so with 0 (43_a_atomic.md R251). -/
def ScSucceeds (s : State) (rd : RegIdx) (addr : Word) (w v : Nat) (t : State) : Prop :=
  (∀ q, t.getX q = if q = rd ∧ rd ≠ 0#5 then 0#64 else s.getX q) ∧ Stored s t addr w v

/-- The store of an sc is not made, and rd says so with 1 (43_a_atomic.md R251). -/
def ScFails (s : State) (rd : RegIdx) (t : State) : Prop :=
  (∀ q, t.getX q = if q = rd ∧ rd ≠ 0#5 then 1#64 else s.getX q) ∧ SameMemory s t ∧ t.stale = s.stale

/-- The part of the outcome that an sc which succeeds and one which fails have in common (43_a_atomic.md R251). -/
def ScEnds (s t : State) : Prop :=
  t.reservation = none
    ∧ t.pc = wrap s (s.pc.toNat + 4)
    ∧ t = { s with x := t.x, pc := t.pc, mem := t.mem, stale := t.stale, reservation := none, draws := t.draws }

theorem scStored_succeeds (hw : w = 4 ∨ w = 8) : ScSucceeds s rd addr w v.toNat (scStored s rd addr w v) := by
  have hstored : Stored (s.scDrawn addr w) ((s.scDrawn addr w).poke addr w v) addr w v.toNat :=
    poke_stored (atomic_le_space hw _)
  refine ⟨getX_writeX_of_agree (n := 4) (by simp) (by simp) (cut_zero _), ?_⟩
  exact hstored.of_agree (by simp) (by simp) (by simp) (by simp [scStored]) (by simp [scStored])

theorem scStored_ends (s : State) (rd : RegIdx) (addr : Word) (w : Nat) (v : Word) : ScEnds s (scStored s rd addr w v) := by
  refine ⟨rfl, writeX_pc_of_agree (by simp) (by simp), ?_⟩
  rw [scStored, writeX_frame, poke_frame, scDrawn_frame]

/-- 1 fits every XLEN. -/
theorem cut_one (xlen : Xlen) : cut xlen 1#64 = 1#64 := by cases xlen <;> rfl

theorem scFailed_fails (s : State) (rd : RegIdx) (addr : Word) (w : Nat) : ScFails s rd (scFailed s rd addr w) :=
  ⟨getX_writeX_of_agree (n := 4) (by simp) (by simp) (cut_one _), fun a => by simp [scFailed], by simp [scFailed]⟩

theorem scFailed_ends (s : State) (rd : RegIdx) (addr : Word) (w : Nat) : ScEnds s (scFailed s rd addr w) := by
  refine ⟨rfl, writeX_pc_of_agree (by simp) (by simp), ?_⟩
  rw [scFailed, writeX_frame, scDrawn_frame]

/-- An sc succeeds when it must, and otherwise succeeds or fails (43_a_atomic.md R251, 20_memory.md R81). -/
theorem storeConditional_completes (hw : w = 4 ∨ w = 8) (ha : addr.toNat % w = 0) (hm : Mapped s .atomic addr w) :
    ∃ t, s.storeConditional rd addr w v = .next t
      ∧ (s.reservation = some ⟨addr, w⟩ → s.cfg.scMayFailSpuriously = false → ScSucceeds s rd addr w v.toNat t)
      ∧ (s.reservation = some ⟨addr, w⟩ → ScSucceeds s rd addr w v.toNat t ∨ ScFails s rd t)
      ∧ (s.reservation ≠ some ⟨addr, w⟩ → ScFails s rd t)
      ∧ ScEnds s t := by
  refine ⟨_, storeConditional_of_mapped ha hm, ?_⟩
  cases hsc : s.scSucceeds addr w with
  | true =>
    have hsucceeds : ScSucceeds s rd addr w v.toNat (scStored s rd addr w v) := scStored_succeeds hw
    exact ⟨fun _ _ => hsucceeds, fun _ => .inl hsucceeds, fun hne => absurd (reservation_of_scSucceeds hsc) hne,
      scStored_ends s rd addr w v⟩
  | false =>
    have hfails := scFailed_fails s rd addr w
    exact ⟨fun hr hspurious => absurd (scSucceeds_of_reservation hr hspurious) (Bool.eq_false_iff.1 hsc),
      fun _ => .inr hfails, fun _ => hfails, scFailed_ends s rd addr w⟩

end

/-- Settles O38: both instructions are the store-conditional of their width. -/
theorem storeConditionalCompletes : Obligations.StoreConditionalCompletes := by
  intro row hrow rd rs1 rs2 aq rl s
  fin_cases hrow
  · exact storeConditional_completes (.inl rfl)
  · exact storeConditional_completes (.inr rfl)

/-! ## The atomic memory operations -/

/-- The outcome of an atomic operation that completes: the number a was in memory, r is stored in its place
(43_a_atomic.md R250, R252). -/
def Exchanges (s : State) (result : Result) (rd : RegIdx) (addr : Word) (w a r : Nat) : Prop :=
  ∃ t, result = .next t
    ∧ (∀ q, t.getX q = if q = rd ∧ rd ≠ 0#5 then wrap s (signed (8 * w) a) else s.getX q)
    ∧ Stored s t addr w r
    ∧ t.pc = wrap s (s.pc.toNat + 4)
    ∧ t = { s with x := t.x, pc := t.pc, mem := t.mem, stale := t.stale }

section
variable {s : State} {w a : Nat} {rd : RegIdx} {addr : Word}

/-- An atomic operation that passes its checks and reads a number (43_a_atomic.md R250, R252). -/
theorem amo_of_holds {op : Word → Word} (ha : addr.toNat % w = 0) (hm : Mapped s .atomic addr w) (hv : Holds s addr w a) :
    s.amo rd addr w op
      = .next ((s.poke addr w (op (BitVec.ofNat 64 a))).writeX 4 rd (atomicValue s.xlen w (BitVec.ofNat 64 a))) := by
  rw [State.amo, checkAccess_strict_of_mapped ha hm, peek_of_holds hv]
  rfl

/-- An atomic operation, from the low bytes of what it computes of the number in memory (43_a_atomic.md R250, R252). -/
theorem amo_exchanges {op : Word → Word} {r : Nat} (hw : w = 4 ∨ w = 8) (ha : addr.toNat % w = 0)
    (hm : Mapped s .atomic addr w) (hv : Holds s addr w a) (hop : (op (BitVec.ofNat 64 a)).toNat ≡ r [MOD 256 ^ w]) :
    Exchanges s (s.amo rd addr w op) rd addr w a r := by
  have hstored := (poke_stored (s := s) (addr := addr) (v := op (BitVec.ofNat 64 a)) (atomic_le_space hw _)).of_modEq hop
  refine ⟨_, amo_of_holds ha hm hv, ?_, ?_, ?_, ?_⟩
  · exact getX_writeX_of_agree (poke_cfg ..) (poke_x ..) (cut_atomicValue hw s a)
  · exact hstored.of_agree rfl rfl rfl (writeX_mem ..) (writeX_stale ..)
  · exact writeX_pc_of_agree (poke_cfg ..) (poke_pc ..)
  · rw [writeX_frame, poke_frame]

/-! What an operation at the width of the access computes: the operands are the number in memory and the low bytes of rs2. -/

/-- The operation as a function of the unsigned readings that gives a natural number. -/
abbrev ComputesNat (op : ∀ w, BitVec w → BitVec w → BitVec w) (spec : Nat → Nat → Nat → Nat) : Prop :=
  Computes op fun n a b => (spec n a b : Int)

/-- An operation on a w-byte number and the low w bytes of a word (43_a_atomic.md R252). -/
theorem ComputesNat.atomic_modEq {op : ∀ w, BitVec w → BitVec w → BitVec w} {spec : Nat → Nat → Nat → Nat}
    (h : ComputesNat op spec) (hw : 8 * w ≤ 64) (ha : a < 256 ^ w) (v : Word) :
    (op (8 * w) ((BitVec.ofNat 64 a).setWidth (8 * w)) (v.setWidth (8 * w))).toNat
      ≡ spec (8 * w) a (v.toNat % 256 ^ w) [MOD 256 ^ w] := by
  have hpow : 256 ^ w = 2 ^ (8 * w) := by rw [Nat.pow_mul]
  have hmem : ((BitVec.ofNat 64 a).setWidth (8 * w)).toNat = a := by
    rw [BitVec.setWidth_ofNat_of_le hw, BitVec.toNat_ofNat, Nat.mod_eq_of_lt (hpow ▸ ha)]
  rw [h, hmem, BitVec.toNat_setWidth, BitVec.ofInt_natCast, BitVec.toNat_ofNat, hpow]
  exact Nat.mod_modEq _ _

end

/-- A row of the statement: the instruction stores what its function computes of the number in memory and the low bytes of rs2. -/
def AtomicCompletes (instr : RegIdx → RegIdx → RegIdx → BitVec 1 → BitVec 1 → Instr) (w : Nat) (spec : Nat → Nat → Nat → Nat) :
    Prop :=
  ∀ (rd rs1 rs2 : RegIdx) (aq rl : BitVec 1) (s : State) (a : Nat),
    (s.getX rs1).toNat % w = 0 → Mapped s .atomic (s.getX rs1) w → Holds s (s.getX rs1) w a →
    Exchanges s (exec (instr rd rs1 rs2 aq rl) s) rd (s.getX rs1) w a (spec (8 * w) a (uval s rs2 % 256 ^ w))

section
variable {instr : RegIdx → RegIdx → RegIdx → BitVec 1 → BitVec 1 → Instr} {op : ∀ w, BitVec w → BitVec w → BitVec w}
  {spec : Nat → Nat → Nat → Nat}

/-- An atomic operation on a word (43_a_atomic.md R256 to R264). -/
theorem amoWord_completes (h : ComputesNat op spec)
    (hexec : ∀ {rd rs1 rs2 aq rl s},
      exec (instr rd rs1 rs2 aq rl) s = s.amoWord rd (s.getX rs1) (s.getX rs2) (op 32)) : AtomicCompletes instr 4 spec := by
  intro rd rs1 rs2 aq rl s a ha hm hv
  rw [hexec]
  refine amo_exchanges (.inl rfl) ha hm hv ?_
  rw [BitVec.toNat_setWidth_of_le (by decide)]
  exact h.atomic_modEq (w := 4) (by decide) hv.1 _

/-- An atomic operation on a doubleword (43_a_atomic.md R267 to R275). -/
theorem amoDouble_completes (h : ComputesNat op spec)
    (hexec : ∀ {rd rs1 rs2 aq rl s},
      exec (instr rd rs1 rs2 aq rl) s = s.amoDouble rd (s.getX rs1) (s.getX rs2) (op 64)) : AtomicCompletes instr 8 spec := by
  intro rd rs1 rs2 aq rl s a ha hm hv
  rw [hexec]
  refine amo_exchanges (.inr rfl) ha hm hv ?_
  have hop := h.atomic_modEq (w := 8) (by decide) hv.1 (s.getX rs2)
  rwa [BitVec.setWidth_eq, BitVec.setWidth_eq] at hop

end

/-! Swap, minimum and maximum, as functions of the numbers of their operands. -/

/-- The operation of a swap: its second operand (43_a_atomic.md R256, R267). -/
def swapOp (w : Nat) (_a b : BitVec w) : BitVec w := b

theorem swapOp_computes : ComputesNat swapOp fun _ _ b => b := fun _ _ b => eq_ofInt_toNat b

/-- The smaller of two values, from what their order decides. -/
theorem minOp_computes {lt : ∀ w, BitVec w → BitVec w → Bool} {spec : Nat → Nat → Nat → Bool} (h : Decides lt spec) :
    ComputesNat (minOp lt) fun n a b => if spec n a b then a else b := fun w a b => by
  dsimp only
  rw [minOp, h]
  split <;> exact eq_ofInt_toNat _

/-- The larger of two values, from what their order decides. -/
theorem maxOp_computes {lt : ∀ w, BitVec w → BitVec w → Bool} {spec : Nat → Nat → Nat → Bool} (h : Decides lt spec) :
    ComputesNat (maxOp lt) fun n a b => if spec n a b then b else a := fun w a b => by
  dsimp only
  rw [maxOp, h]
  split <;> exact eq_ofInt_toNat _

theorem minSigned_computes : ComputesNat (minOp ltSigned) fun n a b => if signed n a < signed n b then a else b := by
  simpa using minOp_computes ltSigned_decides

theorem maxSigned_computes : ComputesNat (maxOp ltSigned) fun n a b => if signed n a < signed n b then b else a := by
  simpa using maxOp_computes ltSigned_decides

theorem minUnsigned_computes : ComputesNat (minOp ltUnsigned) fun _ a b => min a b := by
  simpa [min_def_lt] using minOp_computes ltUnsigned_decides

theorem maxUnsigned_computes : ComputesNat (maxOp ltUnsigned) fun _ a b => max a b := by
  simpa [max_def_lt] using maxOp_computes ltUnsigned_decides

/-- Settles O39: each instruction stores what its operation computes at the width of its access. -/
theorem atomicOperationsComplete : Obligations.AtomicOperationsComplete := by
  intro row hrow
  show AtomicCompletes row.1 row.2.1 row.2.2
  fin_cases hrow
  · exact amoWord_completes swapOp_computes rfl
  · exact amoWord_completes addOp_computes rfl
  · exact amoWord_completes xorOp_computes rfl
  · exact amoWord_completes andOp_computes rfl
  · exact amoWord_completes orOp_computes rfl
  · exact amoWord_completes minSigned_computes rfl
  · exact amoWord_completes maxSigned_computes rfl
  · exact amoWord_completes minUnsigned_computes rfl
  · exact amoWord_completes maxUnsigned_computes rfl
  · exact amoDouble_completes swapOp_computes rfl
  · exact amoDouble_completes addOp_computes rfl
  · exact amoDouble_completes xorOp_computes rfl
  · exact amoDouble_completes andOp_computes rfl
  · exact amoDouble_completes orOp_computes rfl
  · exact amoDouble_completes minSigned_computes rfl
  · exact amoDouble_completes maxSigned_computes rfl
  · exact amoDouble_completes minUnsigned_computes rfl
  · exact amoDouble_completes maxUnsigned_computes rfl

/-! ## The ordering bits -/

/-- The machines of an atomic instruction of w bytes: those with A and registers of w bytes (43_a_atomic.md R250). -/
def atomicAvailability (w : Nat) : Availability :=
  { on32 := w ≤ Xlen.rv32.bytes, on64 := w ≤ Xlen.rv64.bytes, needs := [.A], excludes := [], admitted := true }

theorem atomicAvailability_on {w : Nat} {xlen : Xlen} {ext : Ext} (hw : w ≤ xlen.bytes) (ha : ext.a = true) :
    (atomicAvailability w).on xlen ext = true := by
  cases xlen <;> simp [Availability.on, atomicAvailability, Ext.has, hw, ha]

/-- An atomic instruction with the meaning of another: the meaning is the same in every state, and its word decodes to it on every
machine that has the instruction. -/
theorem meaning_eq_and_decodes {i j : Instr} {w : Nat} (hexec : ∀ s, exec i s = exec j s)
    (havailable : i.availability = atomicAvailability w) (hfields : ∀ xlen, i.fieldsOk xlen = true) :
    (∀ s : State, exec i s = exec j s)
    ∧ (∀ (xlen : Xlen) (ext : Ext), w ≤ xlen.bytes → ext.a = true → decode xlen ext i.encode = some i) := by
  refine ⟨hexec, fun xlen ext hw ha => decodeInvertsEncode i xlen ext ?_⟩
  rw [Instr.wf, havailable, atomicAvailability_on hw ha, hfields, Bool.and_self]

/-- Settles O40: no meaning reads the two bits, and each word decodes by the round trip (`decodeInvertsEncode`). -/
theorem orderingBitsHaveNoEffect : Obligations.OrderingBitsHaveNoEffect := by
  refine ⟨fun row hrow rd rs1 aq rl => ?_, fun row hrow rd rs1 rs2 aq rl => ?_⟩ <;>
    fin_cases hrow <;> exact meaning_eq_and_decodes (fun _ => rfl) rfl fun _ => rfl

end Sys2Proof.Machine
end

section
/-! Proofs about the floating-point formats (44_f_single.md R300): the fields of a pattern, what `unpack` reads, and the numbers of
the patterns in their order. -/

namespace Sys2Proof.Machine

/-! ## The fields of a pattern -/

section
variable (fmt : FloatFormat) (v : Word)

/-- Below the sign are the exponent and the fraction. -/
theorem width_sub_one : fmt.width - 1 = fmt.fracBits + fmt.expBits := by cases fmt <;> rfl

/-- The biased exponents are those of twice as many binades as the bias, and two more. -/
theorem two_pow_expBits : 2 ^ fmt.expBits = 2 * fmt.bias + 2 := by cases fmt <;> rfl

/-- There is a half of every fraction. -/
theorem two_pow_fracBits : 2 ^ fmt.fracBits = 2 * 2 ^ (fmt.fracBits - 1) := by cases fmt <;> rfl

theorem bias_pos : 0 < fmt.bias := by cases fmt <;> decide

/-- The sign doubles the patterns. -/
theorem two_pow_width : 2 ^ fmt.width = 2 * 2 ^ (fmt.width - 1) := by cases fmt <;> rfl

theorem two_pow_width_le : 2 ^ fmt.width ≤ 2 ^ 64 := by cases fmt <;> decide

/-- The exponent field is what stands above the fraction in the magnitude. -/
theorem magnitude_div : magnitude fmt v / 2 ^ fmt.fracBits = expField fmt v := by
  rw [magnitude, width_sub_one, Nat.pow_add, Nat.mod_mul_right_div_self]
  rfl

/-- The fraction field is the low end of the magnitude. -/
theorem magnitude_mod : magnitude fmt v % 2 ^ fmt.fracBits = fracField fmt v := by
  rw [magnitude, width_sub_one, Nat.pow_add, Nat.mod_mul_right_mod]
  rfl

theorem signBit_eq_negative : signBit fmt v = negative fmt v := by
  rw [signBit, negative, BitVec.getLsbD, Nat.testBit_eq_decide_div_mod_eq]
  exact (Bool.beq_eq_decide_eq _ _).symm

theorem fracField_lt : fracField fmt v < 2 ^ fmt.fracBits := Nat.mod_lt _ (Nat.two_pow_pos _)

theorem expField_lt : expField fmt v < 2 ^ fmt.expBits := Nat.mod_lt _ (Nat.two_pow_pos _)

/-- The top bit of a fraction tells whether it is below the half. -/
theorem testBit_fracField :
    (fracField fmt v).testBit (fmt.fracBits - 1) = decide (2 ^ (fmt.fracBits - 1) ≤ fracField fmt v) := by
  have hlt := fracField_lt fmt v
  rw [two_pow_fracBits] at hlt
  rw [Nat.testBit_eq_decide_div_mod_eq, decide_eq_decide]
  constructor
  · intro h
    by_contra hsmall
    rw [Nat.div_eq_of_lt (by omega)] at h
    omega
  · intro h
    rw [Nat.div_eq_of_lt_le (k := 1) (by omega) (by omega)]

/-- A pattern of a sign and a magnitude, as a number. -/
theorem withSign_toNat {m : Nat} (sign : Bool) (hm : m < 2 ^ (fmt.width - 1)) :
    (withSign fmt sign m).toNat = m + (if sign then 2 ^ (fmt.width - 1) else 0) := by
  have hw := two_pow_width_le fmt
  rw [two_pow_width] at hw
  rw [withSign, BitVec.toNat_ofNat, Nat.mod_eq_of_lt]
  split <;> omega

theorem withSign_lt {m : Nat} (sign : Bool) (hm : m < 2 ^ (fmt.width - 1)) :
    (withSign fmt sign m).toNat < 2 ^ fmt.width := by
  rw [withSign_toNat fmt sign hm, two_pow_width]
  split <;> omega

theorem magnitude_withSign {m : Nat} (sign : Bool) (hm : m < 2 ^ (fmt.width - 1)) :
    magnitude fmt (withSign fmt sign m) = m := by
  rw [magnitude, withSign_toNat fmt sign hm]
  cases sign
  · exact Nat.mod_eq_of_lt hm
  · rw [if_pos rfl, Nat.add_mod_right, Nat.mod_eq_of_lt hm]

theorem negative_withSign {m : Nat} (sign : Bool) (hm : m < 2 ^ (fmt.width - 1)) :
    negative fmt (withSign fmt sign m) = sign := by
  rw [negative, withSign_toNat fmt sign hm]
  cases sign
  · rw [if_neg Bool.false_ne_true, Nat.add_zero, Nat.div_eq_of_lt hm]
    rfl
  · rw [if_pos rfl, Nat.add_div_right _ (Nat.two_pow_pos _), Nat.div_eq_of_lt hm]
    rfl

end

/-! ## What `unpack` reads -/

section
variable {fmt : FloatFormat} {v : Word}

/-- Reading by the fields (44_f_single.md R300). -/
theorem unpack_eq (fmt : FloatFormat) (v : Word) :
    unpack fmt v
      = if expField fmt v = 2 ^ fmt.expBits - 1 then
          if fracField fmt v = 0 then .inf (negative fmt v) else .nan (decide (fracField fmt v < 2 ^ (fmt.fracBits - 1)))
        else if expField fmt v = 0 then
          if fracField fmt v = 0 then .zero (negative fmt v) else .finite (negative fmt v) (fracField fmt v) fmt.unitExp
        else .finite (negative fmt v) (2 ^ fmt.fracBits + fracField fmt v) (fmt.unitExp + (expField fmt v - 1 : Nat)) := by
  simp only [unpack, magnitude_div, magnitude_mod, signBit_eq_negative, testBit_fracField, ← decide_not, Nat.not_le]

/-- The exponent fields of the numbers are below that of the infinities. -/
theorem expBits_top_ne_zero (fmt : FloatFormat) : 0 ≠ 2 ^ fmt.expBits - 1 := by cases fmt <;> decide

theorem unpack_of_nan (h : IsNan fmt v) : unpack fmt v = .nan (decide (IsSnan fmt v)) := by
  obtain ⟨hexp, hfrac⟩ := h
  rw [unpack_eq, if_pos hexp, if_neg hfrac]
  simp [IsSnan, IsNan, hexp, hfrac]

theorem unpack_of_inf (h : IsInf fmt v) : unpack fmt v = .inf (negative fmt v) := by
  rw [unpack_eq, if_pos h.1, if_pos h.2]

theorem unpack_of_zero (h : IsZero fmt v) : unpack fmt v = .zero (negative fmt v) := by
  obtain ⟨hexp, hfrac⟩ := h
  rw [unpack_eq, hexp, if_neg (expBits_top_ne_zero fmt), if_pos rfl, if_pos hfrac]

/-- A pattern is a NaN, an infinity, a zero or another finite number. -/
theorem nan_or_inf_or_zero_or_finite (fmt : FloatFormat) (v : Word) :
    IsNan fmt v ∨ IsInf fmt v ∨ IsZero fmt v ∨ (IsFinite fmt v ∧ ¬IsZero fmt v) := by
  unfold IsNan IsInf IsZero IsFinite
  tauto

theorem IsZero.finite (h : IsZero fmt v) : IsFinite fmt v := by
  rw [IsFinite, h.1]
  exact expBits_top_ne_zero fmt

end

/-! ## The numbers of the magnitudes -/

/-- The factor of a sign. -/
abbrev sgn (neg : Bool) : ℝ := if neg then -1 else 1

theorem sgn_xor (a b : Bool) : sgn (a != b) = sgn a * sgn b := by
  cases a <;> cases b <;> simp [sgn]

theorem abs_sgn (a : Bool) : |sgn a| = 1 := by cases a <;> simp [sgn]

/-- The number that a magnitude stands for in a format, carried on past the finite ones. -/
noncomputable def magReal (fmt : FloatFormat) (m : Nat) : ℝ :=
  (if m / 2 ^ fmt.fracBits = 0 then (m % 2 ^ fmt.fracBits : Nat) else (2 ^ fmt.fracBits + m % 2 ^ fmt.fracBits : Nat) : ℝ)
    * 2 ^ (fmt.unitExp + (m / 2 ^ fmt.fracBits - 1 : Nat))

section
variable {fmt : FloatFormat} {v : Word}

/-- The number of a pattern is that of its magnitude under its sign. -/
theorem realOf_eq (fmt : FloatFormat) (v : Word) : realOf fmt v = sgn (negative fmt v) * magReal fmt (magnitude fmt v) := by
  rw [realOf, magReal, magnitude_div, magnitude_mod]
  congr 1
  split
  · next h => simp [h, FloatFormat.unitExp]
  · next h =>
    congr 2
    rw [FloatFormat.unitExp, Nat.cast_sub (Nat.pos_of_ne_zero h)]
    ring

/-- What `unpack` reads of a finite number that is not zero: the number. -/
theorem unpack_of_finite (h : IsFinite fmt v) (h0 : ¬IsZero fmt v) :
    ∃ m e, unpack fmt v = .finite (negative fmt v) m e ∧ 0 < m ∧ magReal fmt (magnitude fmt v) = m * 2 ^ e := by
  rw [unpack_eq, if_neg h, magReal, magnitude_div, magnitude_mod]
  by_cases hexp : expField fmt v = 0
  · have hfrac : fracField fmt v ≠ 0 := fun hfrac => h0 ⟨hexp, hfrac⟩
    exact ⟨_, _, by rw [if_pos hexp, if_neg hfrac], Nat.pos_of_ne_zero hfrac, by simp [hexp]⟩
  · exact ⟨_, _, by rw [if_neg hexp], by positivity, by rw [if_neg hexp]⟩

/-- A magnitude that lies g binades above the subnormals, and N units there: at most two binades of units, and a full binade of
them below unless there is none below. -/
theorem magReal_grid (fmt : FloatFormat) {g N : Nat} (hN : N ≤ 2 * 2 ^ fmt.fracBits) (hg : g = 0 ∨ 2 ^ fmt.fracBits ≤ N) :
    magReal fmt (g * 2 ^ fmt.fracBits + N) = N * 2 ^ (fmt.unitExp + g) := by
  have hpos : 0 < 2 ^ fmt.fracBits := Nat.two_pow_pos _
  have key : ∀ E F : Nat, g * 2 ^ fmt.fracBits + N = E * 2 ^ fmt.fracBits + F → F < 2 ^ fmt.fracBits →
      magReal fmt (g * 2 ^ fmt.fracBits + N)
        = (if E = 0 then (F : ℝ) else ((2 ^ fmt.fracBits + F : Nat) : ℝ)) * 2 ^ (fmt.unitExp + (E - 1 : Nat)) := by
    intro E F h hF
    have hdiv : (E * 2 ^ fmt.fracBits + F) / 2 ^ fmt.fracBits = E := by
      rw [Nat.add_comm, Nat.add_mul_div_right _ _ hpos, Nat.div_eq_of_lt hF, Nat.zero_add]
    have hmod : (E * 2 ^ fmt.fracBits + F) % 2 ^ fmt.fracBits = F := by
      rw [Nat.add_comm, Nat.add_mul_mod_self_right, Nat.mod_eq_of_lt hF]
    rw [h, magReal, hdiv, hmod]
  rcases lt_or_ge N (2 ^ fmt.fracBits) with hsmall | hbig
  · obtain rfl : g = 0 := hg.resolve_right hsmall.not_ge
    rw [key 0 N rfl hsmall]
    simp
  rcases hN.lt_or_eq with hlt | rfl
  · rw [key (g + 1) (N - 2 ^ fmt.fracBits) (by rw [Nat.succ_mul]; omega) (by omega), if_neg g.succ_ne_zero,
      Nat.add_sub_cancel' hbig, Nat.add_sub_cancel]
  · rw [key (g + 2) 0 (by ring) hpos, if_neg (by omega), Nat.add_zero, show g + 2 - 1 = g + 1 from rfl]
    push_cast
    rw [← add_assoc, zpow_add_one₀ two_ne_zero]
    ring

/-- Every magnitude lies in such a place, and so does the next one. -/
theorem exists_grid (fmt : FloatFormat) (m : Nat) :
    ∃ g N, m = g * 2 ^ fmt.fracBits + N ∧ N + 1 ≤ 2 * 2 ^ fmt.fracBits ∧ (g = 0 ∨ 2 ^ fmt.fracBits ≤ N) := by
  have hmod := Nat.mod_lt m (Nat.two_pow_pos fmt.fracBits)
  have hdiv := Nat.div_add_mod' m (2 ^ fmt.fracBits)
  rcases h : m / 2 ^ fmt.fracBits with _ | g
  · exact ⟨0, m, by omega, by rw [h] at hdiv; omega, .inl rfl⟩
  · refine ⟨g, 2 ^ fmt.fracBits + m % 2 ^ fmt.fracBits, ?_, by omega, .inr (Nat.le_add_right _ _)⟩
    rw [h, Nat.succ_mul] at hdiv
    omega

/-- Larger magnitudes stand for larger numbers. -/
theorem magReal_strictMono (fmt : FloatFormat) : StrictMono (magReal fmt) := by
  refine strictMono_nat_of_lt_succ fun m => ?_
  obtain ⟨g, N, rfl, hN, hg⟩ := exists_grid fmt m
  rw [magReal_grid fmt (by omega) hg, Nat.add_assoc, magReal_grid fmt hN (by omega)]
  gcongr
  exact Nat.lt_succ_self N

theorem magReal_zero (fmt : FloatFormat) : magReal fmt 0 = 0 := by simp [magReal]

theorem magReal_nonneg (fmt : FloatFormat) (m : Nat) : 0 ≤ magReal fmt m := by
  rw [← magReal_zero fmt]
  exact (magReal_strictMono fmt).monotone (Nat.zero_le m)

/-- The least pattern that is not finite, in its binade. -/
theorem infBits_eq (fmt : FloatFormat) :
    fmt.infBits = (2 * fmt.bias - 1) * 2 ^ fmt.fracBits + 2 * 2 ^ fmt.fracBits := by
  have := bias_pos fmt
  rw [FloatFormat.infBits, two_pow_expBits, ← Nat.add_mul]
  congr 1
  omega

/-- The number past the finite ones (44_f_single.md R304 (d)). -/
theorem magReal_infBits (fmt : FloatFormat) : magReal fmt fmt.infBits = finiteBound fmt := by
  have hbias : 1 ≤ 2 * fmt.bias := by have := bias_pos fmt; omega
  rw [infBits_eq, magReal_grid fmt le_rfl (.inr (by omega)), finiteBound]
  push_cast [hbias]
  rw [← zpow_natCast, ← zpow_one_add₀ two_ne_zero, ← zpow_add₀ two_ne_zero]
  congr 1
  rw [FloatFormat.unitExp]
  ring

/-- The largest finite number (44_f_single.md R304 (d)). -/
theorem magReal_infBits_sub_one (fmt : FloatFormat) :
    magReal fmt (fmt.infBits - 1) = finiteBound fmt - topSpacing fmt := by
  have hbias : 1 ≤ 2 * fmt.bias := by have := bias_pos fmt; omega
  have hpos : 1 ≤ 2 * 2 ^ fmt.fracBits := by have := Nat.two_pow_pos fmt.fracBits; omega
  rw [infBits_eq, Nat.add_sub_assoc hpos, magReal_grid fmt (Nat.sub_le _ _) (.inr (by omega)), Nat.cast_sub hpos, sub_mul]
  congr 1
  · rw [← magReal_infBits, infBits_eq, magReal_grid fmt le_rfl (.inr (by omega))]
  · rw [topSpacing, Nat.cast_one, one_mul, FloatFormat.unitExp, Nat.cast_sub hbias]
    congr 1
    push_cast
    ring

theorem infBits_lt (fmt : FloatFormat) : fmt.infBits < 2 ^ (fmt.width - 1) := by cases fmt <;> decide

theorem infBits_even (fmt : FloatFormat) : fmt.infBits % 2 = 0 := by cases fmt <;> rfl

/-- A pattern is finite when its magnitude is below that of the infinities. -/
theorem isFinite_iff : IsFinite fmt v ↔ magnitude fmt v < fmt.infBits := by
  have h := expField_lt fmt v
  rw [FloatFormat.infBits, ← Nat.div_lt_iff_lt_mul (Nat.two_pow_pos _), magnitude_div, IsFinite]
  omega

/-- A pattern is an infinity when its magnitude is that of the infinities. -/
theorem isInf_iff : IsInf fmt v ↔ magnitude fmt v = fmt.infBits := by
  have hsplit := Nat.div_add_mod' (magnitude fmt v) (2 ^ fmt.fracBits)
  rw [magnitude_div, magnitude_mod] at hsplit
  constructor
  · rintro ⟨hexp, hfrac⟩
    rw [← hsplit, hexp, hfrac]
    rfl
  · intro h
    rw [IsInf, ← magnitude_div, ← magnitude_mod, h, FloatFormat.infBits, Nat.mul_div_cancel _ (Nat.two_pow_pos _),
      Nat.mul_mod_left]
    exact ⟨rfl, rfl⟩

/-- A pattern is a zero when its magnitude is. -/
theorem isZero_iff : IsZero fmt v ↔ magnitude fmt v = 0 := by
  have hsplit := Nat.div_add_mod' (magnitude fmt v) (2 ^ fmt.fracBits)
  rw [magnitude_div, magnitude_mod] at hsplit
  constructor
  · rintro ⟨hexp, hfrac⟩
    rw [← hsplit, hexp, hfrac, Nat.zero_mul]
  · intro h
    rw [IsZero, ← magnitude_div, ← magnitude_mod, h]
    exact ⟨Nat.zero_div _, Nat.zero_mod _⟩

/-- The number zero is that of the zeros. -/
theorem realOf_eq_zero_iff : realOf fmt v = 0 ↔ IsZero fmt v := by
  have hsgn : sgn (negative fmt v) ≠ 0 := by rw [← abs_pos, abs_sgn]; exact one_pos
  rw [realOf_eq, mul_eq_zero, or_iff_right hsgn, isZero_iff, ← (magReal_strictMono fmt).injective.eq_iff, magReal_zero]

end

end Sys2Proof.Machine
end

section
/-! Proofs about the floating-point instructions as a whole (44_f_single.md R301 to R341 and their like for D and Zfh): which
register each writes, with which flags, over the numeric functions. -/

namespace Sys2Proof.Machine

/-! ## The gates, passed -/

section
variable {i : Instr} {s : State} {rm : BitVec 3} {mode : RoundingMode}

/-- An instruction passes the gate of FS while the unit is on (10_state.md R34). -/
theorem fpGate_of_fpOn (hon : FpOn s) (body : Result) : s.fpGate i body = body := by
  rw [State.fpGate, fpOff_of_fpOn hon]
  rfl

/-- An instruction that rounds passes both gates with the rounding direction in force (44_f_single.md R302). -/
theorem fpRounded_of_fpOn (hon : FpOn s) (hrm : s.effectiveRm rm = some mode) (body : RoundingMode → Result) :
    s.fpRounded i rm body = body mode := by
  rw [State.fpRounded, fpGate_of_fpOn hon, hrm]

end

/-! ## Writing a register with flags -/

section
variable {s : State} {n : Nat} {rd : RegIdx} {fmt : FloatFormat} {flags : FpFlags}

/-- A floating-point register written after flags are accrued: f, fflags and mstatus change (44_f_single.md R303). -/
theorem orFlags_setF_eq (s : State) (flags : FpFlags) (rd : RegIdx) (v : Word) :
    (s.orFlags flags).setF rd v
      = { s with
          f := s.f.set rd.toNat (cutF s.cfg.ext v) rd.isLt
          fflags := s.fflags ||| flags
          mstatus := dirtied s } := by
  unfold State.orFlags State.setF State.dirtyFs dirtied
  cases htrap : s.cfg.trapDelivery <;> simp [htrap]

/-- Writing a floating-point register accrues no flag (44_f_single.md R311). -/
theorem setF_eq_orFlags_setF (s : State) (rd : RegIdx) (v : Word) : s.setF rd v = (s.orFlags 0#5).setF rd v := by
  rw [orFlags_setF_eq, State.setF, dirtyFs_eq, BitVec.or_zero]

/-- What every floating-point register reads after a write of one (10_state.md R28). -/
theorem getF_setF (s : State) (rd : RegIdx) (v : Word) (q : RegIdx) :
    (s.setF rd v).getF q = if q = rd then cutF s.cfg.ext v else s.getF q := by
  by_cases hq : q = rd
  · rw [hq, if_pos rfl, getF_setF_same]
  · rw [if_neg hq, getF_setF_ne s v hq]

/-- pc after an instruction of n bytes, said by its number (10_state.md R26). -/
theorem advance_pc_eq_wrap (s : State) (n : Nat) : (s.advance n).pc = wrap s (s.pc.toNat + n) := by
  rw [advance_eq]

/-- A floating-point result and its flags, written by an instruction that moves on, are all it changes. -/
theorem orFlags_setF_advance_writesF (s : State) (n : Nat) (rd : RegIdx) (fmt : FloatFormat) (v : Word) (flags : FpFlags) :
    WritesF s (.next (((s.orFlags flags).setF rd (box s.cfg.ext fmt v)).advance n)) n rd (box s.cfg.ext fmt v) flags := by
  refine ⟨_, rfl, fun q => ?_, ?_, ?_, ?_, fun a => ?_, ?_⟩
  · refine (getF_setF _ rd _ q).trans ?_
    rw [orFlags_cfg, box, cutF_cutF]
    simp [State.getF]
  · simp
  · rw [orFlags_setF_eq]
    rfl
  · rw [orFlags_setF_eq, advance_pc_eq_wrap]
    rfl
  · simp
  · rw [orFlags_setF_eq]
    rfl

/-- A boxed result with its flags (44_f_single.md R301, R303). -/
theorem writeFp_writesF (s : State) (rd : RegIdx) (fmt : FloatFormat) (r : Word × FpFlags) :
    WritesF s (.next (s.writeFp fmt rd r)) 4 rd (box s.cfg.ext fmt r.1) r.2 :=
  orFlags_setF_advance_writesF s 4 rd fmt r.1 r.2

/-- A boxed bit pattern, no flag (44_f_single.md R311). -/
theorem writeRaw_writesF (s : State) (n : Nat) (rd : RegIdx) (fmt : FloatFormat) (v : Word) :
    WritesF s (.next (s.writeRaw n fmt rd v)) n rd (box s.cfg.ext fmt v) 0#5 := by
  rw [State.writeRaw, setF_eq_orFlags_setF]
  exact orFlags_setF_advance_writesF s n rd fmt v 0#5

/-- An integer result with its flags (44_f_single.md R303). -/
theorem writeInt_writesXAndFlags {v w : Word} (hv : cut s.cfg.xlen v = w) (flags : FpFlags) :
    WritesXAndFlags s (.next (s.writeInt rd v flags)) rd w flags := by
  have horFlags : s.orFlags flags = { s with fflags := s.fflags ||| flags, mstatus := dirtied s } := by
    rw [State.orFlags, dirtyFs_eq]
  refine ⟨_, rfl, fun q => ?_, ?_, ?_, ?_, fun a => ?_, ?_⟩
  · refine (getX_setX _ rd v q).trans ?_
    rw [orFlags_cfg, hv, getX_congr (orFlags_x s flags) (orFlags_cfg s flags)]
  · simp
  · simp [State.writeInt, horFlags]
  · refine (advance_pc_eq_wrap _ 4).trans ?_
    simp [wrap]
  · simp
  · rw [State.writeInt, horFlags]
    unfold State.setX
    split <;> rfl

end

/-! ## The arithmetic -/

section
variable {i : Instr} {s : State} {rm : BitVec 3} {mode : RoundingMode} {fmt : FloatFormat} {rd rs1 rs2 rs3 : RegIdx}

/-- The arithmetic on two operands (44_f_single.md R316 to R319). -/
theorem fpArith_writesF (hon : FpOn s) (hrm : s.effectiveRm rm = some mode)
    (op : FloatFormat → RoundingMode → Word → Word → Word × FpFlags) :
    let r := op fmt mode (s.operand fmt rs1) (s.operand fmt rs2)
    WritesF s (s.fpArith i fmt rm rd rs1 rs2 op) 4 rd (box s.cfg.ext fmt r.1) r.2 := by
  rw [State.fpArith, fpRounded_of_fpOn hon hrm]
  exact writeFp_writesF s rd fmt _

/-- The square root (44_f_single.md R320). -/
theorem fpRoot_writesF (hon : FpOn s) (hrm : s.effectiveRm rm = some mode) :
    let r := fpSqrt fmt mode (s.operand fmt rs1)
    WritesF s (s.fpRoot i fmt rm rd rs1) 4 rd (box s.cfg.ext fmt r.1) r.2 := by
  rw [State.fpRoot, fpRounded_of_fpOn hon hrm]
  exact writeFp_writesF s rd fmt _

/-- The fused forms, each by the signs it flips (44_f_single.md R305, R312 to R315). -/
theorem fpFused_writesF (hon : FpOn s) (hrm : s.effectiveRm rm = some mode) (negProduct negAddend : Bool) :
    let a := s.operand fmt rs1
    let c := s.operand fmt rs3
    let r := fpFma fmt mode (if negProduct then negFloat fmt a else a) (s.operand fmt rs2) (if negAddend then negFloat fmt c else c)
    WritesF s (s.fpFused i fmt rm rd rs1 rs2 rs3 negProduct negAddend) 4 rd (box s.cfg.ext fmt r.1) r.2 := by
  rw [State.fpFused, fpRounded_of_fpOn hon hrm]
  exact writeFp_writesF s rd fmt _

end

/-- Settles O41: each instruction is the form of its kind over its numeric function. -/
theorem floatArithmeticCompletes : Obligations.FloatArithmeticCompletes := by
  refine ⟨fun row hrow rd rs1 rs2 rm mode s hon hrm => ?_, fun row hrow rd rs1 rm mode s hon hrm => ?_,
    fun row hrow rd rs1 rs2 rs3 rm mode s hon hrm => ?_⟩
  · fin_cases hrow <;> exact fpArith_writesF hon hrm _
  · fin_cases hrow <;> exact fpRoot_writesF hon hrm
  · fin_cases hrow <;> exact fpFused_writesF hon hrm _ _

/-! ## Conversions -/

section
variable {i : Instr} {s : State} {rm : BitVec 3} {mode : RoundingMode} {fmt : FloatFormat} {rd rs1 : RegIdx}

/-- An XLEN-bit value of a 32-bit integer (44_f_single.md R307). -/
theorem cut_sext_ofInt32 (s : State) (z : Int) :
    cut s.cfg.xlen (sext s.xlen (BitVec.ofInt 32 z)) = wrap s (Int.bmod z (2 ^ 32)) := by
  rw [State.xlen, sext, cut_cut, ← sext, sext_eq_wrap, BitVec.toInt_ofInt]

/-- An XLEN-bit value of a 64-bit integer (44_f_single.md R307). -/
theorem cut_ofInt64 (s : State) (z : Int) : cut s.cfg.xlen (BitVec.ofInt 64 z) = wrap s (Int.bmod z (2 ^ 64)) := by
  rw [← BitVec.toInt_ofInt, ← sext_eq_wrap, sext, BitVec.signExtend_eq]

/-- The conversion to 32 bits (44_f_single.md R307, R326, R327). -/
theorem fpToWord_writes (hon : FpOn s) (hrm : s.effectiveRm rm = some mode) (isSigned : Bool) :
    let r := fpToInt fmt mode (s.operand fmt rs1) 32 isSigned
    WritesXAndFlags s (s.fpToWord i fmt rm rd rs1 isSigned) rd (wrap s (Int.bmod r.1 (2 ^ 32))) r.2 := by
  rw [State.fpToWord, fpRounded_of_fpOn hon hrm]
  exact writeInt_writesXAndFlags (cut_sext_ofInt32 s _) _

/-- The conversion to 64 bits (44_f_single.md R307, R338, R339). -/
theorem fpToLong_writes (hon : FpOn s) (hrm : s.effectiveRm rm = some mode) (isSigned : Bool) :
    let r := fpToInt fmt mode (s.operand fmt rs1) 64 isSigned
    WritesXAndFlags s (s.fpToLong i fmt rm rd rs1 isSigned) rd (wrap s (Int.bmod r.1 (2 ^ 64))) r.2 := by
  rw [State.fpToLong, fpRounded_of_fpOn hon hrm]
  exact writeInt_writesXAndFlags (cut_ofInt64 s _) _

/-- The conversion from an integer (44_f_single.md R308). -/
theorem fpFromInt_writesF (hon : FpOn s) (hrm : s.effectiveRm rm = some mode) {z z' : Int} (hz : z = z') :
    let r := intToFp fmt mode z'
    WritesF s (s.fpFromInt i fmt rm rd z) 4 rd (box s.cfg.ext fmt r.1) r.2 := by
  rw [State.fpFromInt, fpRounded_of_fpOn hon hrm, hz]
  exact writeFp_writesF s rd fmt _

/-- The conversion between formats (44_f_single.md R308). -/
theorem fpResize_writesF {src dst : FloatFormat} (hon : FpOn s) (hrm : s.effectiveRm rm = some mode) :
    let r := fpConvert src dst mode (s.operand src rs1)
    WritesF s (s.fpResize i src dst rm rd rs1) 4 rd (box s.cfg.ext dst r.1) r.2 := by
  rw [State.fpResize, fpRounded_of_fpOn hon hrm]
  exact writeFp_writesF s rd dst _

end

/-- The signed reading of the low word of a register. -/
theorem toInt_setWidth32_getX (s : State) (r : RegIdx) : ((s.getX r).setWidth 32).toInt = signed 32 (uval s r) := by
  rw [uval, ← toInt_setWidth_ofNat (by decide), BitVec.ofNat_toNat, BitVec.setWidth_eq]

/-- The unsigned reading of the low word of a register. -/
theorem toNat_setWidth32_getX_cast (s : State) (r : RegIdx) :
    (((s.getX r).setWidth 32).toNat : Int) = (uval s r % 2 ^ 32 : Nat) := congrArg _ (toNat_setWidth32_getX s r)

/-- The signed reading of a register in 64 bits. -/
theorem toInt_getX (s : State) (r : RegIdx) : (s.getX r).toInt = signed 64 (uval s r) := (signed_toNat _).symm

/-- Settles O44: each instruction is the form of its kind, and the integer it reads is its register's. -/
theorem floatConversionsComplete : Obligations.FloatConversionsComplete := by
  refine ⟨fun row hrow rd rs1 rm mode s hon hrm => ?_, fun row hrow rd rs1 rm mode s hon hrm => ?_,
    fun row hrow rd rs1 rm mode s hon hrm => ?_⟩
  · fin_cases hrow
    · exact fpToWord_writes hon hrm true
    · exact fpToWord_writes hon hrm false
    · exact fpToLong_writes hon hrm true
    · exact fpToLong_writes hon hrm false
    · exact fpToWord_writes hon hrm true
    · exact fpToWord_writes hon hrm false
    · exact fpToLong_writes hon hrm true
    · exact fpToLong_writes hon hrm false
    · exact fpToWord_writes hon hrm true
    · exact fpToWord_writes hon hrm false
    · exact fpToLong_writes hon hrm true
    · exact fpToLong_writes hon hrm false
  · fin_cases hrow <;> dsimp only
    · exact fpFromInt_writesF hon hrm (toInt_setWidth32_getX s rs1)
    · exact fpFromInt_writesF hon hrm (toNat_setWidth32_getX_cast s rs1)
    · exact fpFromInt_writesF hon hrm (toInt_getX s rs1)
    · exact fpFromInt_writesF hon hrm rfl
    · exact fpFromInt_writesF hon hrm (toInt_setWidth32_getX s rs1)
    · exact fpFromInt_writesF hon hrm (toNat_setWidth32_getX_cast s rs1)
    · exact fpFromInt_writesF hon hrm (toInt_getX s rs1)
    · exact fpFromInt_writesF hon hrm rfl
    · exact fpFromInt_writesF hon hrm (toInt_setWidth32_getX s rs1)
    · exact fpFromInt_writesF hon hrm (toNat_setWidth32_getX_cast s rs1)
    · exact fpFromInt_writesF hon hrm (toInt_getX s rs1)
    · exact fpFromInt_writesF hon hrm rfl
  · fin_cases hrow <;> exact fpResize_writesF hon hrm

/-! ## Sign injection, min, max, the comparisons and fclass -/

section
variable {i : Instr} {s : State} {fmt : FloatFormat} {rd rs1 rs2 : RegIdx}

/-- Sign injection (44_f_single.md R321 to R323). -/
theorem fpSign_writesF (hon : FpOn s) (sign : Bool → Bool → Bool) :
    let a := s.operand fmt rs1
    let neg := sign (negative fmt a) (negative fmt (s.operand fmt rs2))
    WritesF s (s.fpSign i fmt rd rs1 rs2 sign) 4 rd
      (box s.cfg.ext fmt (BitVec.ofNat 64 (a.toNat % 2 ^ (fmt.width - 1) + (if neg then 2 ^ (fmt.width - 1) else 0)))) 0#5 := by
  rw [State.fpSign, fpGate_of_fpOn hon]
  simp only [signBit_eq_negative]
  exact writeRaw_writesF s 4 rd fmt _

/-- Minimum and maximum (44_f_single.md R324, R325). -/
theorem fpSelect_writesF (hon : FpOn s) (op : FloatFormat → Word → Word → Word × FpFlags) :
    let r := op fmt (s.operand fmt rs1) (s.operand fmt rs2)
    WritesF s (s.fpSelect i fmt rd rs1 rs2 op) 4 rd (box s.cfg.ext fmt r.1) r.2 := by
  rw [State.fpSelect, fpGate_of_fpOn hon]
  exact writeFp_writesF s rd fmt _

/-- The integer of a truth value in a register (44_f_single.md R309). -/
theorem cut_ofBool (s : State) (b : Bool) : cut s.cfg.xlen (ofBool b) = wrap s (truth b) := by
  have htruth : truth b = ((if b then 1 else 0 : Nat) : Int) := by cases b <;> rfl
  rw [htruth, wrap_natCast]
  cases b <;> rfl

/-- The comparisons (44_f_single.md R329 to R331). -/
theorem fpTest_writes (hon : FpOn s) (rel : FpRelation) :
    let r := fpCompare fmt s.cfg.fltFleQnanInvalid rel (s.operand fmt rs1) (s.operand fmt rs2)
    WritesXAndFlags s (s.fpTest i fmt rd rs1 rs2 rel) rd (wrap s (truth r.1)) r.2 := by
  rw [State.fpTest, fpGate_of_fpOn hon]
  exact writeInt_writesXAndFlags (cut_ofBool s _) _

end

/-- Settles O42: each instruction is the form of its kind. -/
theorem floatSelectAndCompareComplete : Obligations.FloatSelectAndCompareComplete := by
  refine ⟨fun row hrow rd rs1 rs2 s hon => ?_, fun row hrow rd rs1 rs2 s hon => ?_, fun row hrow rd rs1 rs2 s hon => ?_⟩
  · fin_cases hrow
    · exact fpSign_writesF hon fun _ b => b
    · exact fpSign_writesF hon fun _ b => !b
    · exact fpSign_writesF hon fun a b => a != b
    · exact fpSign_writesF hon fun _ b => b
    · exact fpSign_writesF hon fun _ b => !b
    · exact fpSign_writesF hon fun a b => a != b
    · exact fpSign_writesF hon fun _ b => b
    · exact fpSign_writesF hon fun _ b => !b
    · exact fpSign_writesF hon fun a b => a != b
  · fin_cases hrow <;> exact fpSelect_writesF hon _
  · fin_cases hrow <;> exact fpTest_writes hon _

section
variable {fmt : FloatFormat} {v : Word}

/-- A finite number is subnormal or zero when its exponent field is zero (44_f_single.md R300). -/
theorem magnitude_lt_two_pow_iff : magnitude fmt v < 2 ^ fmt.fracBits ↔ expField fmt v = 0 := by
  rw [← magnitude_div, Nat.div_eq_zero_iff]
  simp

theorem fpClass_inf (h : IsInf fmt v) : fpClass fmt v = if negative fmt v then 0 else 7 := by
  rw [fpClass, unpack_of_inf h]
  cases negative fmt v <;> rfl

theorem fpClass_zero (h : IsZero fmt v) : fpClass fmt v = if negative fmt v then 3 else 4 := by
  rw [fpClass, unpack_of_zero h]
  cases negative fmt v <;> rfl

theorem fpClass_nan (h : IsNan fmt v) : fpClass fmt v = if IsSnan fmt v then 8 else 9 := by
  rw [fpClass, unpack_of_nan h]
  by_cases hs : IsSnan fmt v
  · rw [if_pos hs, decide_eq_true hs]
  · rw [if_neg hs, decide_eq_false hs]

theorem fpClass_finite (h : IsFinite fmt v) (h0 : ¬IsZero fmt v) :
    fpClass fmt v = if negative fmt v then (if expField fmt v = 0 then 2 else 1) else (if expField fmt v = 0 then 5 else 6) := by
  obtain ⟨m, e, hv, -⟩ := unpack_of_finite h h0
  rw [fpClass, hv]
  cases negative fmt v <;> simp [magnitude_lt_two_pow_iff]

/-- fclass sets the bit of the class (44_f_single.md R332). -/
theorem fpClassify_writesX {s : State} {i : Instr} {rd rs1 : RegIdx} {bit : Nat} (hon : FpOn s)
    (h : fpClass fmt (s.operand fmt rs1) = bit) (hbit : bit < 32) :
    WritesX s (s.fpClassify i fmt rd rs1) 4 rd (BitVec.ofNat 64 (2 ^ bit)) := by
  rw [State.fpClassify, fpGate_of_fpOn hon, h]
  refine writesX_writeX (cut_of_lt ?_)
  have h32 : 2 ^ bit < 2 ^ 32 := Nat.pow_lt_pow_right (by decide) hbit
  rw [BitVec.toNat_ofNat]
  exact (Nat.mod_le _ _).trans_lt (h32.trans_le (Nat.pow_le_pow_right (by decide) (by cases s.cfg.xlen <;> decide)))

end

/-- The table of fclass, bit by bit, with what it says of the fields (44_f_single.md R310). -/
theorem fpClass_of_table {f : FloatFormat} {a : Word} {bit : Nat}
    (h : (bit = 0 ∧ expField f a = 2 ^ f.expBits - 1 ∧ fracField f a = 0 ∧ negative f a = true)
      ∨ (bit = 1 ∧ expField f a ≠ 2 ^ f.expBits - 1 ∧ expField f a ≠ 0 ∧ negative f a = true)
      ∨ (bit = 2 ∧ expField f a = 0 ∧ fracField f a ≠ 0 ∧ negative f a = true)
      ∨ (bit = 3 ∧ expField f a = 0 ∧ fracField f a = 0 ∧ negative f a = true)
      ∨ (bit = 4 ∧ expField f a = 0 ∧ fracField f a = 0 ∧ negative f a = false)
      ∨ (bit = 5 ∧ expField f a = 0 ∧ fracField f a ≠ 0 ∧ negative f a = false)
      ∨ (bit = 6 ∧ expField f a ≠ 2 ^ f.expBits - 1 ∧ expField f a ≠ 0 ∧ negative f a = false)
      ∨ (bit = 7 ∧ expField f a = 2 ^ f.expBits - 1 ∧ fracField f a = 0 ∧ negative f a = false)
      ∨ (bit = 8 ∧ expField f a = 2 ^ f.expBits - 1 ∧ fracField f a ≠ 0 ∧ fracField f a < 2 ^ (f.fracBits - 1))
      ∨ (bit = 9 ∧ expField f a = 2 ^ f.expBits - 1 ∧ 2 ^ (f.fracBits - 1) ≤ fracField f a)) :
    fpClass f a = bit ∧ bit < 32 := by
  rcases h with ⟨rfl, he, hm, hneg⟩ | ⟨rfl, htop, he, hneg⟩ | ⟨rfl, he, hm, hneg⟩ | ⟨rfl, he, hm, hneg⟩ | ⟨rfl, he, hm, hneg⟩
    | ⟨rfl, he, hm, hneg⟩ | ⟨rfl, htop, he, hneg⟩ | ⟨rfl, he, hm, hneg⟩ | ⟨rfl, he, hm, hlt⟩ | ⟨rfl, he, hle⟩
  · simp [fpClass_inf ⟨he, hm⟩, hneg]
  · simp [fpClass_finite htop fun h0 => he h0.1, hneg, he]
  · have hfin : IsFinite f a := by rw [IsFinite, he]; exact expBits_top_ne_zero f
    simp [fpClass_finite hfin fun h0 => hm h0.2, hneg, he]
  · simp [fpClass_zero ⟨he, hm⟩, hneg]
  · simp [fpClass_zero ⟨he, hm⟩, hneg]
  · have hfin : IsFinite f a := by rw [IsFinite, he]; exact expBits_top_ne_zero f
    simp [fpClass_finite hfin fun h0 => hm h0.2, hneg, he]
  · simp [fpClass_finite htop fun h0 => he h0.1, hneg, he]
  · simp [fpClass_inf ⟨he, hm⟩, hneg]
  · rw [fpClass_nan ⟨he, hm⟩, if_pos ⟨⟨he, hm⟩, hlt⟩]
    decide
  · have hhalf : 0 < 2 ^ (f.fracBits - 1) := Nat.two_pow_pos _
    rw [fpClass_nan ⟨he, by omega⟩, if_neg fun hs => hs.2.not_ge hle]
    decide

/-- Settles O43: fclass sets the bit of its class, and the class is that of the table. -/
theorem classifyByTable : Obligations.ClassifyByTable := by
  intro row hrow rd rs1 s hon f a neg e top m bit h
  obtain ⟨hclass, hbit⟩ := fpClass_of_table h
  fin_cases hrow <;> exact fpClassify_writesX hon hclass hbit

/-! ## Moves, loads and stores -/

section
variable {i : Instr} {s : State} {fmt : FloatFormat} {rd rs1 : RegIdx} {n w v : Nat} {addr : Word}

/-- The low bits of a value, sign-extended (44_f_single.md R311). -/
theorem cut_sext_setWidth (s : State) {m : Nat} (hm : m ≤ 64) (x : Word) :
    cut s.cfg.xlen (sext s.xlen (x.setWidth m)) = wrap s (signed m x.toNat) := by
  rw [State.xlen, sext, cut_cut, ← sext, sext_eq_wrap, ← toInt_setWidth_ofNat hm, BitVec.ofNat_toNat, BitVec.setWidth_eq]

/-- The integer that fmv.x makes of the bits of a register: the low ones of the format, read as signed (44_f_single.md R311). -/
def rawInt : FloatFormat → Nat → Int
  | .H, a => signed 16 a
  | .S, a => signed 32 a
  | .D, a => a

/-- The moves to an integer register (44_f_single.md R311, R328). -/
theorem fpToBits_writesX (fmt : FloatFormat) (hon : FpOn s) :
    WritesX s (s.fpToBits i fmt rd rs1) 4 rd (wrap s (rawInt fmt (s.getF rs1).toNat)) := by
  unfold State.fpToBits
  rw [fpGate_of_fpOn hon]
  refine writesX_writeX ?_
  cases fmt with
  | H => exact cut_sext_setWidth s (by decide) _
  | S => exact cut_sext_setWidth s (by decide) _
  | D => rw [rawInt, wrap_natCast, BitVec.ofNat_toNat, BitVec.setWidth_eq]

/-- The moves to a floating-point register (44_f_single.md R311, R335). -/
theorem fpFromBits_writesF (hon : FpOn s) :
    WritesF s (s.fpFromBits i fmt rd rs1) 4 rd (box s.cfg.ext fmt (s.getX rs1)) 0#5 := by
  rw [State.fpFromBits, fpGate_of_fpOn hon]
  exact writeRaw_writesF s 4 rd fmt _

/-- The loads of a number (44_f_single.md R336). -/
theorem fpLoad_writesF (hon : FpOn s) (hw : fmt.width / 8 = w) (ha : AlignedOrEmulated s addr w) (hm : Mapped s .load addr w)
    (hv : Holds s addr w v) :
    WritesF s (s.fpLoad i n fmt rd addr) n rd (box s.cfg.ext fmt (BitVec.ofNat 64 v)) 0#5 := by
  rw [State.fpLoad, fpGate_of_fpOn hon, hw, load_eq_peek ha hm, peek_of_holds hv]
  exact writeRaw_writesF s n rd fmt _

/-- The stores (44_f_single.md R337). -/
theorem fpStore_storesBytes (hon : FpOn s) (hw : fmt.width / 8 = w) (hsmall : w ≤ 2 ^ 32) (ha : AlignedOrEmulated s addr w)
    (hm : Mapped s .store addr w) :
    StoresBytes s (s.fpStore i n fmt rs1 addr) n addr w (s.getF rs1).toNat := by
  rw [State.fpStore, fpGate_of_fpOn hon, hw]
  exact storeX_storesBytes hsmall ha hm

end

/-- Settles O45: each instruction is the form of its kind, of its width. -/
theorem floatMovesLoadsAndStoresComplete : Obligations.FloatMovesLoadsAndStoresComplete := by
  refine ⟨fun rd rs1 s hon => ⟨?_, ?_, ?_, ?_, ?_, ?_⟩, fun row hrow rd rs1 imm s v hon => ?_,
    fun row hrow rs1 rs2 imm s hon => ?_, fun rd rs1 uimm s v hon => ⟨⟨?_, ?_⟩, ?_, ?_⟩,
    fun rd uimm s v hon => ⟨⟨?_, ?_⟩, ?_, ?_⟩⟩
  · exact fpToBits_writesX .H hon
  · exact fpToBits_writesX .S hon
  · exact fpToBits_writesX .D hon
  · exact fpFromBits_writesF hon
  · exact fpFromBits_writesF hon
  · exact fpFromBits_writesF hon
  · fin_cases hrow <;> exact fpLoad_writesF hon rfl
  · fin_cases hrow
    · exact fpStore_storesBytes (fmt := .H) hon rfl (by decide)
    · exact fpStore_storesBytes (fmt := .S) hon rfl (by decide)
    · exact fpStore_storesBytes (fmt := .D) hon rfl (by decide)
  · exact fpLoad_writesF hon rfl
  · exact fpStore_storesBytes (fmt := .S) hon rfl (by decide)
  · exact fpLoad_writesF hon rfl
  · exact fpStore_storesBytes (fmt := .D) hon rfl (by decide)
  · exact fpLoad_writesF hon rfl
  · exact fpStore_storesBytes (fmt := .S) hon rfl (by decide)
  · exact fpLoad_writesF hon rfl
  · exact fpStore_storesBytes (fmt := .D) hon rfl (by decide)

/-! ## Boxing -/

section
variable {ext : Ext} {fmt : FloatFormat} {v r : Word}

/-- The low bits of a format, as a number (44_f_single.md R301). -/
theorem keep_toNat (fmt : FloatFormat) (v : Word) : (fmt.keep v).toNat = v.toNat % 2 ^ fmt.width := by
  cases fmt
  · simp only [FloatFormat.keep, FloatFormat.width, BitVec.toNat_setWidth]
    omega
  · simp only [FloatFormat.keep, FloatFormat.width, BitVec.toNat_setWidth]
    omega
  · exact (Nat.mod_eq_of_lt v.isLt).symm

/-- The low bits of a format. -/
theorem keep_eq (fmt : FloatFormat) (v : Word) : fmt.keep v = BitVec.ofNat 64 (v.toNat % 2 ^ fmt.width) := by
  rw [← keep_toNat, BitVec.ofNat_toNat, BitVec.setWidth_eq]

/-- The low FLEN bits, as a number (10_state.md R28). -/
theorem cutF_toNat (ext : Ext) (v : Word) : (cutF ext v).toNat = v.toNat % 2 ^ ext.flen := by
  unfold cutF Ext.flen
  split
  · exact (Nat.mod_eq_of_lt v.isLt).symm
  · simp only [BitVec.toNat_setWidth]
    omega

theorem flen_le (ext : Ext) : ext.flen ≤ 64 := by
  unfold Ext.flen
  split <;> decide

/-- Ones from bit k up to bit n, as a number. -/
theorem two_pow_sub_two_pow {n k : Nat} (h : k ≤ n) : 2 ^ n - 2 ^ k = (2 ^ (n - k) - 1) * 2 ^ k := by
  rw [Nat.sub_mul, ← Nat.pow_add, Nat.sub_add_cancel h, Nat.one_mul]

/-- The ones that boxing sets, as a number. -/
theorem allOnes_shiftLeft_toNat {k : Nat} (hk : k ≤ 64) : (BitVec.allOnes 64 <<< k).toNat = 2 ^ 64 - 2 ^ k := by
  have hsplit : (2 ^ 64 - 1) * 2 ^ k = (2 ^ 64 - 2 ^ k) + 2 ^ 64 * (2 ^ k - 1) := by
    have hle := Nat.pow_le_pow_right (n := 2) (by decide) hk
    have hone := Nat.two_pow_pos k
    zify [hle, Nat.one_le_iff_ne_zero.2 hone.ne']
    ring
  have hpos := Nat.two_pow_pos k
  rw [BitVec.toNat_shiftLeft, BitVec.toNat_allOnes, Nat.shiftLeft_eq, hsplit, Nat.add_mul_mod_self_left,
    Nat.mod_eq_of_lt (by omega)]

/-- Ones above a number are added to it. -/
theorem or_allOnes_shiftLeft_toNat {k : Nat} (hk : k ≤ 64) {x : Word} (hx : x.toNat < 2 ^ k) :
    (x ||| (BitVec.allOnes 64 <<< k)).toNat = 2 ^ 64 - 2 ^ k + x.toNat := by
  rw [BitVec.toNat_or, allOnes_shiftLeft_toNat hk, two_pow_sub_two_pow hk, Nat.mul_comm, Nat.or_comm,
    ← Nat.two_pow_add_eq_or_of_lt hx]

/-- Boxing: ones above the value up to FLEN (44_f_single.md R301). -/
theorem box_toNat (h : fmt.width ≤ ext.flen) (v : Word) :
    (box ext fmt v).toNat = 2 ^ ext.flen - 2 ^ fmt.width + v.toNat % 2 ^ fmt.width := by
  have hflen : 2 ^ 64 = 2 ^ ext.flen * 2 ^ (64 - ext.flen) := by rw [← Nat.pow_add, Nat.add_sub_cancel' (flen_le ext)]
  have hlow : v.toNat % 2 ^ fmt.width < 2 ^ fmt.width := Nat.mod_lt _ (Nat.two_pow_pos _)
  have hle : 2 ^ fmt.width ≤ 2 ^ ext.flen := Nat.pow_le_pow_right (by decide) h
  rw [box, cutF_toNat, or_allOnes_shiftLeft_toNat (h.trans (flen_le ext)) (by rwa [keep_toNat]), keep_toNat]
  have hsum : 2 ^ 64 - 2 ^ fmt.width + v.toNat % 2 ^ fmt.width
      = 2 ^ ext.flen - 2 ^ fmt.width + v.toNat % 2 ^ fmt.width + 2 ^ ext.flen * (2 ^ (64 - ext.flen) - 1) := by
    rw [Nat.mul_sub_one, ← hflen]
    have : 2 ^ ext.flen ≤ 2 ^ 64 := Nat.pow_le_pow_right (by decide) (flen_le ext)
    omega
  rw [hsum, Nat.add_mul_mod_self_left, Nat.mod_eq_of_lt (by omega)]

/-- Unboxing asks whether the bits above the format are all ones (44_f_single.md R301). -/
theorem unbox_eq (h : fmt.width ≤ ext.flen) (r : Word) :
    unbox ext fmt r
      = if r.toNat / 2 ^ fmt.width = 2 ^ (ext.flen - fmt.width) - 1 then BitVec.ofNat 64 (r.toNat % 2 ^ fmt.width)
        else fmt.nan := by
  have hones : (cutF ext (BitVec.allOnes 64)).toNat / 2 ^ fmt.width = 2 ^ (ext.flen - fmt.width) - 1 := by
    have hcut : (cutF ext (BitVec.allOnes 64)).toNat = (2 ^ fmt.width - 1) + (2 ^ (ext.flen - fmt.width) - 1) * 2 ^ fmt.width := by
      rw [cutF_toNat, BitVec.toNat_allOnes, ← two_pow_sub_two_pow h]
      have hle := Nat.pow_le_pow_right (n := 2) (by decide) h
      have hpos := Nat.two_pow_pos fmt.width
      have hmod : (2 ^ 64 - 1) % 2 ^ ext.flen = 2 ^ ext.flen - 1 := by
        unfold Ext.flen
        split <;> rfl
      omega
    rw [hcut, Nat.add_mul_div_right _ _ (Nat.two_pow_pos _), Nat.div_eq_of_lt (Nat.sub_lt (Nat.two_pow_pos _) Nat.one_pos),
      Nat.zero_add]
  simp only [unbox, ← BitVec.toNat_inj, BitVec.toNat_ushiftRight, Nat.shiftRight_eq_div_pow, hones]
  rw [keep_eq]

end

/-- Settles O47: boxing adds the ones, so unboxing finds them. -/
theorem boxingAndUnboxing : Obligations.BoxingAndUnboxing := by
  intro ext f v r h
  refine ⟨box_toNat h v, ?_, fun _ => ⟨fun hones => ?_, fun hones => ?_⟩⟩
  · have hlow : v.toNat % 2 ^ f.width < 2 ^ f.width := Nat.mod_lt _ (Nat.two_pow_pos _)
    rw [unbox_eq h, box_toNat h, two_pow_sub_two_pow h, Nat.add_comm, Nat.add_mul_div_right _ _ (Nat.two_pow_pos _),
      Nat.div_eq_of_lt hlow, Nat.zero_add, if_pos rfl, Nat.add_mul_mod_self_right, Nat.mod_mod]
  · rw [unbox_eq h, if_pos hones]
  · rw [unbox_eq h, if_neg hones]

end Sys2Proof.Machine
end

section
/-! Proofs about rounding (44_f_single.md R302, R304): what `roundToGrid` gives on a scale of numbers, and that `roundFloat` is the
number rounded once. -/

namespace Sys2Proof.Machine

/-! ## Rounding on a scale -/

/-- Whether a direction takes a magnitude y between the neighbours n and n + 1 of a scale to the upper one (44_f_single.md R302). -/
def UpFrom (v : Nat → ℝ) (rm : RoundingMode) (sign : Bool) (y : ℝ) (n : Nat) : Prop :=
  match rm with
  | .rne => v n + v (n + 1) < 2 * y ∨ (v n + v (n + 1) = 2 * y ∧ n % 2 = 1)
  | .rmm => v n + v (n + 1) ≤ 2 * y
  | .rtz => False
  | .rdn => sign = true ∧ v n < y
  | .rup => sign = false ∧ v n < y

/-- The magnitude y of a number of the given sign is rounded to the place m of a scale: of the two neighbours of y, the one that the
direction takes. -/
def RoundsOn (v : Nat → ℝ) (rm : RoundingMode) (sign : Bool) (y : ℝ) (m : Nat) : Prop :=
  ∃ n, v n ≤ y ∧ y < v (n + 1) ∧ ((UpFrom v rm sign y n ∧ m = n + 1) ∨ (¬UpFrom v rm sign y n ∧ m = n))

section
variable {v : Nat → ℝ} {rm : RoundingMode} {sign : Bool} {y : ℝ} {m n : Nat}

/-- The direction reads the two neighbours and the evenness of the lower one only. -/
theorem upFrom_congr {v' : Nat → ℝ} {n' : Nat} (h0 : v n = v' n') (h1 : v (n + 1) = v' (n' + 1)) (hpar : n % 2 = n' % 2) :
    UpFrom v rm sign y n ↔ UpFrom v' rm sign y n' := by
  unfold UpFrom
  rw [h0, h1, hpar]

/-- A number on the scale stays where it is. -/
theorem not_upFrom_self (hv : StrictMono v) (hy : v n = y) : ¬UpFrom v rm sign y n := by
  have hlt : v n < v (n + 1) := hv n.lt_succ_self
  cases rm with
  | rne | rtz | rdn | rup | rmm =>
    simp only [UpFrom]
    grind

/-- A number on the scale is rounded to itself. -/
theorem roundsOn_self (hv : StrictMono v) (hy : v n = y) : RoundsOn v rm sign y n :=
  ⟨n, hy.le, hy ▸ hv n.lt_succ_self, .inr ⟨not_upFrom_self hv hy, rfl⟩⟩

/-- Where a scale is passed: the least y that reaches an even place (44_f_single.md R302). -/
def Reaches (v : Nat → ℝ) (rm : RoundingMode) (sign : Bool) (y : ℝ) (k : Nat) : Prop :=
  match towardOf rm sign with
  | .zero => v (k + 1) ≤ y
  | .away => v k < y
  | .nearest => v k + v (k + 1) ≤ 2 * y

/-- Between neighbours, the upper one is reached when the direction takes it, if it is even. -/
theorem upFrom_iff_reaches (hy : y < v (n + 1)) (hn : n % 2 = 1) : UpFrom v rm sign y n ↔ Reaches v rm sign y n := by
  cases rm <;> cases sign <;> simp [UpFrom, Reaches, towardOf, hn, hy, hy.ne', le_iff_lt_or_eq]

/-- The place that y is rounded to reaches an even place exactly when y does. -/
theorem RoundsOn.reaches_iff (hv : StrictMono v) (h : RoundsOn v rm sign y m) {k : Nat} (hk : k % 2 = 1) :
    k + 1 ≤ m ↔ Reaches v rm sign y k := by
  obtain ⟨n, hle, hlt, hm⟩ := h
  rcases lt_trichotomy n k with hnk | rfl | hkn
  · have hbelow : y < v k := hlt.trans_le (hv.monotone hnk)
    have hstep : v k < v (k + 1) := hv k.lt_succ_self
    refine iff_of_false (by omega) ?_
    unfold Reaches
    split <;> linarith
  · rw [← upFrom_iff_reaches hlt hk]
    constructor
    · intro hge
      exact (hm.resolve_right fun h => by omega).1
    · intro hup
      rcases hm with ⟨-, rfl⟩ | ⟨hnot, -⟩
      · exact le_rfl
      · exact absurd hup hnot
  · have habove : v (k + 1) ≤ y := (hv.monotone hkn).trans hle
    have hstep : v k < v (k + 1) := hv k.lt_succ_self
    refine iff_of_true (by omega) ?_
    unfold Reaches
    split <;> linarith

end

/-! ## Numbers held with a sticky bit -/

/-- The number y is held as mant * 2^exp: it is that number, or the lowest bit of mant is sticky, so that y lies anywhere between
the neighbours of mant, and the grid it is rounded to is coarser than that bit and the next. -/
def HeldFor (grid : Int) (mant : Nat) (exp : Int) (y : ℝ) : Prop :=
  y = mant * 2 ^ exp
    ∨ (mant % 2 = 1 ∧ exp + 2 ≤ grid ∧ ((mant : ℝ) - 1) * 2 ^ exp < y ∧ y < ((mant : ℝ) + 1) * 2 ^ exp)

section
variable {rm : RoundingMode} {sign : Bool} {mant : Nat} {exp grid : Int} {y : ℝ}

/-- Twice y compares with the multiples of the grid as twice what it is held as does. -/
theorem HeldFor.compare (h : HeldFor grid mant exp y) {k : Nat} (hk : grid = exp + k) (j : Nat) :
    (j * 2 ^ grid ≤ 2 * y ↔ j * 2 ^ k ≤ 2 * mant) ∧ (j * 2 ^ grid < 2 * y ↔ j * 2 ^ k < 2 * mant) := by
  have hpos : (0 : ℝ) < 2 ^ exp := by positivity
  have hgrid : (2 : ℝ) ^ grid = 2 ^ k * 2 ^ exp := by rw [hk, add_comm, zpow_add₀ two_ne_zero, zpow_natCast]
  rcases h with rfl | ⟨hodd, hfine, hlo, hhi⟩
  · rw [hgrid, ← mul_assoc, ← mul_assoc, mul_le_mul_iff_left₀ hpos, mul_lt_mul_iff_left₀ hpos]
    exact ⟨by exact_mod_cast Iff.rfl, by exact_mod_cast Iff.rfl⟩
  · obtain ⟨i, rfl⟩ : ∃ i, k = i + 2 := ⟨k - 2, by omega⟩
    obtain ⟨b, rfl⟩ : ∃ b, mant = 2 * b + 1 := ⟨mant / 2, by omega⟩
    set c := j * 2 ^ i with hc
    have hj : (j : ℝ) * 2 ^ grid = 2 * ((2 * c : Nat) * 2 ^ exp) := by
      rw [hgrid, hc]
      push_cast
      ring
    have hnat : j * 2 ^ (i + 2) = 4 * c := by rw [hc]; ring
    push_cast at hlo hhi
    rw [hj, hnat]
    rcases Nat.lt_or_ge b c with hbc | hcb
    · have hy : y < (2 * c : Nat) * 2 ^ exp := by
        refine hhi.trans_le ?_
        gcongr
        push_cast
        have : (b : ℝ) + 1 ≤ c := by exact_mod_cast hbc
        linarith
      exact ⟨iff_of_false (by linarith) (by omega), iff_of_false (by linarith) (by omega)⟩
    · have hy : (2 * c : Nat) * 2 ^ exp < y := by
        refine lt_of_le_of_lt ?_ hlo
        gcongr
        push_cast
        have : (c : ℝ) ≤ b := by exact_mod_cast hcb
        linarith
      exact ⟨iff_of_true (by linarith) (by omega), iff_of_true (by linarith) (by omega)⟩

/-- The multiples of a grid are a scale. -/
theorem grid_strictMono (grid : Int) : StrictMono fun n : Nat => (n : ℝ) * 2 ^ grid := fun a b h => by
  dsimp only
  gcongr

/-- The quotient and the remainder by the grid tell where y lies between the multiples of it. -/
theorem HeldFor.remainder (h : HeldFor grid mant exp y) {k : Nat} (hk : grid = exp + k) :
    let q := mant / 2 ^ k
    let r := mant % 2 ^ k
    let v : Nat → ℝ := fun n => n * 2 ^ grid
    v q ≤ y ∧ y < v (q + 1) ∧ (v q < y ↔ r ≠ 0)
      ∧ (v q + v (q + 1) ≤ 2 * y ↔ 2 ^ k ≤ 2 * r) ∧ (v q + v (q + 1) < 2 * y ↔ 2 ^ k < 2 * r) := by
  intro q r v
  have hdiv : q * 2 ^ k + r = mant := Nat.div_add_mod' mant (2 ^ k)
  have hmod : r < 2 ^ k := Nat.mod_lt mant (Nat.two_pow_pos k)
  have hv : ∀ i j : Nat, ((i + j : Nat) : ℝ) * 2 ^ grid = v i + v j := fun i j => by
    push_cast
    exact add_mul _ _ _
  obtain ⟨hlowle, hlowlt⟩ := h.compare hk (q + q)
  obtain ⟨hmidle, hmidlt⟩ := h.compare hk (q + (q + 1))
  obtain ⟨hhighle, -⟩ := h.compare hk ((q + 1) + (q + 1))
  rw [hv, Nat.add_mul] at hlowle hlowlt hmidle hmidlt hhighle
  rw [Nat.succ_mul] at hmidle hmidlt hhighle
  refine ⟨?_, ?_, ?_, ?_, ?_⟩
  · have := hlowle.2 (by omega)
    linarith
  · by_contra hge
    have := hhighle.1 (by linarith)
    omega
  · rw [← mul_lt_mul_iff_right₀ (two_pos : (0 : ℝ) < 2), two_mul (v q), hlowlt]
    omega
  · rw [hmidle]
    omega
  · rw [hmidlt]
    omega

/-- The model's decision on the remainder is that of the direction on the scale. -/
theorem roundsUp_iff_upFrom {v : Nat → ℝ} {q r k : Nat} (hlow : v q < y ↔ r ≠ 0) (hle : v q + v (q + 1) ≤ 2 * y ↔ 2 ^ k ≤ 2 * r)
    (hlt : v q + v (q + 1) < 2 * y ↔ 2 ^ k < 2 * r) : roundsUp rm sign q r k = true ↔ UpFrom v rm sign y q := by
  have heq : v q + v (q + 1) = 2 * y ↔ 2 * r = 2 ^ k := by
    rw [eq_iff_le_not_lt, hle, hlt]
    omega
  cases rm <;> simp [roundsUp, UpFrom, hlow, hle, hlt, heq]

/-- Rounding to a grid gives the place among its multiples, and says whether y was one of them (44_f_single.md R302). -/
theorem roundToGrid_spec (h : HeldFor grid mant exp y) :
    RoundsOn (fun n => n * 2 ^ grid) rm sign y (roundToGrid rm sign mant exp grid).1
      ∧ ((roundToGrid rm sign mant exp grid).2 = false ↔ ((roundToGrid rm sign mant exp grid).1 : ℝ) * 2 ^ grid = y) := by
  unfold roundToGrid
  by_cases hcoarse : grid ≤ exp
  · have hy : y = mant * 2 ^ exp := h.resolve_right fun hs => by omega
    have hself : ((mant * 2 ^ (exp - grid).toNat : Nat) : ℝ) * 2 ^ grid = y := by
      rw [hy]
      push_cast
      rw [mul_assoc, ← zpow_natCast, ← zpow_add₀ two_ne_zero, Int.toNat_of_nonneg (by omega), Int.sub_add_cancel]
    rw [if_pos hcoarse]
    exact ⟨roundsOn_self (grid_strictMono grid) hself, iff_of_true rfl hself⟩
  · rw [if_neg hcoarse]
    dsimp only
    obtain ⟨hle, hlt, hlow, hmidle, hmidlt⟩ := h.remainder (k := (grid - exp).toNat) (by omega)
    have hup := roundsUp_iff_upFrom (rm := rm) (sign := sign) (v := fun n => n * 2 ^ grid) hlow hmidle hmidlt
    refine ⟨⟨_, hle, hlt, ?_⟩, ?_⟩
    · rw [← hup]
      split
      · next hyes => exact .inl ⟨hyes, rfl⟩
      · next hno => exact .inr ⟨hno, rfl⟩
    · rw [bne_eq_false_iff_eq]
      constructor
      · intro hr
        have hy := hle.antisymm (le_of_not_gt fun hlt => hlow.1 hlt hr)
        rw [if_neg fun hyes => not_upFrom_self (grid_strictMono grid) hy (hup.1 hyes)]
        exact hy
      · intro heq
        by_contra hr
        split at heq
        · exact hlt.ne' heq
        · exact (hlow.2 hr).ne heq

end

/-! ## Rounding to a format -/

/-- The number y is held as mant * 2^exp for a precision: it is that number, or mant has a sticky lowest bit at least three places
below the precision. -/
def Held (prec mant : Nat) (exp : Int) (y : ℝ) : Prop :=
  y = mant * 2 ^ exp
    ∨ (mant % 2 = 1 ∧ prec + 2 ≤ mant.log2 ∧ ((mant : ℝ) - 1) * 2 ^ exp < y ∧ y < ((mant : ℝ) + 1) * 2 ^ exp)

section
variable {fmt : FloatFormat} {rm : RoundingMode} {sign : Bool} {mant : Nat} {exp : Int} {y : ℝ}

/-- What is held for a precision is held for every grid of that precision or coarser. -/
theorem Held.heldFor {prec : Nat} (h : Held prec mant exp y) {grid : Int} (hgrid : exp + (mant.log2 : Int) - prec ≤ grid) :
    HeldFor grid mant exp y :=
  h.imp_right fun ⟨hodd, hprec, hbounds⟩ => ⟨hodd, by omega, hbounds⟩

/-- The binade of a number is that of what it is held as. -/
theorem Held.binade {prec : Nat} (h : Held prec mant exp y) (hm : 0 < mant) :
    2 ^ (exp + (mant.log2 : Int)) ≤ y ∧ y < 2 ^ (exp + (mant.log2 : Int) + 1) := by
  have hlow : 2 ^ mant.log2 ≤ mant := Nat.log2_self_le hm.ne'
  have hhigh : mant < 2 ^ (mant.log2 + 1) := Nat.lt_log2_self
  have hlow' : (2 : ℝ) ^ (exp + (mant.log2 : Int)) = (2 ^ mant.log2 : Nat) * 2 ^ exp := by
    rw [add_comm, zpow_add₀ two_ne_zero, zpow_natCast]
    push_cast
    rfl
  have hhigh' : (2 : ℝ) ^ (exp + (mant.log2 : Int) + 1) = (2 ^ (mant.log2 + 1) : Nat) * 2 ^ exp := by
    rw [zpow_add_one₀ two_ne_zero, hlow', pow_succ]
    push_cast
    ring
  rw [hlow', hhigh']
  rcases h with rfl | ⟨hodd, hprec, hlo, hhi⟩
  · constructor
    · gcongr
    · gcongr
  · obtain ⟨i, hi⟩ : ∃ i, mant.log2 = i + 1 := ⟨mant.log2 - 1, by omega⟩
    rw [hi, pow_succ] at hlow hhigh ⊢
    constructor
    · refine le_trans ?_ hlo.le
      gcongr
      rw [← Nat.cast_pred hm]
      exact_mod_cast Nat.le_sub_one_of_lt (by omega)
    · refine hhi.trans_le ?_
      gcongr
      exact_mod_cast hhigh

/-- A place on a grid of the format is a place among its magnitudes. -/
theorem RoundsOn.to_magReal {g N : Nat} (h : RoundsOn (fun n => n * 2 ^ (fmt.unitExp + g)) rm sign y N)
    (hhigh : y < 2 * 2 ^ fmt.fracBits * 2 ^ (fmt.unitExp + g)) (hlow : g = 0 ∨ 2 ^ fmt.fracBits * 2 ^ (fmt.unitExp + g) ≤ y) :
    RoundsOn (magReal fmt) rm sign y (g * 2 ^ fmt.fracBits + N)
      ∧ magReal fmt (g * 2 ^ fmt.fracBits + N) = N * 2 ^ (fmt.unitExp + g) := by
  obtain ⟨n, hle, hlt, hN⟩ := h
  have hpos : (0 : ℝ) < 2 ^ (fmt.unitExp + g) := by positivity
  have hn : n + 1 ≤ 2 * 2 ^ fmt.fracBits := by
    have := lt_of_mul_lt_mul_right (hle.trans_lt hhigh) hpos.le
    exact_mod_cast this
  have hg : g = 0 ∨ 2 ^ fmt.fracBits ≤ n := by
    refine hlow.imp_right fun hfull => ?_
    have := lt_of_mul_lt_mul_right (hfull.trans_lt hlt) hpos.le
    exact Nat.le_of_lt_succ (by exact_mod_cast this)
  have h0 := magReal_grid fmt (Nat.le_of_succ_le hn) hg
  have h1 := magReal_grid fmt (g := g) hn (by omega)
  have hpar : n % 2 = (g * 2 ^ fmt.fracBits + n) % 2 := by
    rw [two_pow_fracBits, Nat.mul_left_comm, Nat.mul_add_mod]
  have hup := upFrom_congr (rm := rm) (sign := sign) (y := y) (v := fun n => n * 2 ^ (fmt.unitExp + g)) h0.symm h1.symm hpar
  refine ⟨⟨_, h0.trans_le hle, hlt.trans_eq h1.symm, ?_⟩, ?_⟩
  · rw [← hup]
    exact hN.imp (And.imp_right fun hN => by rw [hN]; rfl) (And.imp_right fun hN => by rw [hN])
  · rcases hN with ⟨-, rfl⟩ | ⟨-, rfl⟩
    · exact h1
    · exact h0

/-- Overflow is asked of the rounded magnitude (44_f_single.md R304 (d)). -/
theorem RoundsOn.overflows_iff {x : ℝ} {m : Nat} (h : RoundsOn (magReal fmt) rm sign |x| m) :
    fmt.infBits ≤ m ↔ Overflows fmt rm sign x := by
  have hpos : 0 < fmt.infBits := by cases fmt <;> decide
  have heven := infBits_even fmt
  have hreach := h.reaches_iff (magReal_strictMono fmt) (k := fmt.infBits - 1) (by omega)
  rw [Nat.sub_add_cancel hpos] at hreach
  rw [hreach, Reaches, Overflows, Nat.sub_add_cancel hpos, magReal_infBits, magReal_infBits_sub_one]
  cases towardOf rm sign
  · exact Iff.rfl
  · exact Iff.rfl
  · dsimp only
    constructor <;> intro _ <;> linarith

/-- Tininess is asked of the magnitude rounded with no bound on the exponent: in the binade below the least normal number, of
whether that reaches the least normal number (44_f_single.md R304 (e)). -/
theorem tiny_iff {x : ℝ} {top fine minNormalExp : Int} (h : Held fmt.fracBits mant exp |x|) (hm : 0 < mant)
    (htop : top = exp + (mant.log2 : Int)) (hfine : fine = top - (fmt.fracBits : Int))
    (hmin : minNormalExp = fmt.unitExp + (fmt.fracBits : Int)) :
    (top < minNormalExp - 1
        ∨ (top = minNormalExp - 1 ∧ (roundToGrid rm sign mant exp fine).1 < 2 ^ (fmt.fracBits + 1)))
      ↔ Tiny fmt rm sign x := by
  have hleast : leastNormal fmt = 2 ^ minNormalExp := by
    rw [leastNormal, hmin, FloatFormat.unitExp, sub_add_cancel]
  obtain ⟨hlow, hhigh⟩ := h.binade hm
  rw [← htop] at hlow hhigh
  set ε := leastNormal fmt / 2 ^ (fmt.fracBits + 1) with hε
  have hhalf : leastNormal fmt / 2 ^ (fmt.fracBits + 2) = ε / 2 := by rw [hε, div_div, ← pow_succ]
  have hpos : 0 < ε := by rw [hε, hleast]; positivity
  have hone : (1 : ℝ) ≤ 2 ^ fmt.fracBits := one_le_pow₀ one_le_two
  have hscale : leastNormal fmt = 2 * 2 ^ fmt.fracBits * ε := by
    rw [hε, pow_succ]
    field_simp
  have hsmall : 2 * ε ≤ leastNormal fmt := by nlinarith
  rcases lt_trichotomy top (minNormalExp - 1) with hbelow | heq | habove
  · have hy : 2 * |x| < leastNormal fmt := by
      rw [hleast, ← sub_add_cancel minNormalExp 1, zpow_add_one₀ two_ne_zero, mul_comm]
      have : (2 : ℝ) ^ (top + 1) ≤ 2 ^ (minNormalExp - 1) := zpow_le_zpow_right₀ one_le_two (by omega)
      linarith
    refine iff_of_true (.inl hbelow) ?_
    unfold Tiny
    split <;> linarith
  · have hunit : (2 : ℝ) ^ fine = ε := by
      rw [hε, hleast, ← zpow_natCast, ← zpow_sub₀ two_ne_zero, hfine, heq]
      congr 1
      push_cast
      ring
    have hK : 1 ≤ 2 ^ (fmt.fracBits + 1) := Nat.one_le_two_pow
    have hKeven : 2 ^ (fmt.fracBits + 1) % 2 = 0 := by rw [pow_succ, Nat.mul_mod_left]
    have hreach := (roundToGrid_spec (rm := rm) (sign := sign) (h.heldFor (by omega : _ ≤ fine))).1.reaches_iff
      (grid_strictMono fine) (k := 2 ^ (fmt.fracBits + 1) - 1) (by omega)
    rw [Nat.sub_add_cancel hK] at hreach
    rw [or_iff_right heq.not_lt, and_iff_right heq, ← not_le, hreach, Reaches, Tiny, Nat.sub_add_cancel hK, hunit,
      Nat.cast_sub hK, hhalf]
    push_cast
    rw [show (2 : ℝ) ^ (fmt.fracBits + 1) * ε = leastNormal fmt by rw [hscale]; ring,
      show ((2 : ℝ) ^ (fmt.fracBits + 1) - 1) * ε = leastNormal fmt - ε by rw [hscale]; ring]
    cases towardOf rm sign
    · exact not_le
    · exact not_lt
    · dsimp only
      constructor <;> intro _ <;> linarith
  · have hy : leastNormal fmt ≤ |x| := by
      rw [hleast]
      exact (zpow_le_zpow_right₀ one_le_two (by omega)).trans hlow
    refine iff_of_false (by omega) ?_
    unfold Tiny
    split <;> linarith

end

/-! ## The rounding of the statements -/

section
variable {v : Nat → ℝ} {rm : RoundingMode} {sign : Bool} {y : ℝ} {m : Nat}

/-- Toward zero the rounding is the greatest place not above y. -/
theorem RoundsOn.toward_zero (hv : StrictMono v) (h : RoundsOn v rm sign y m) (ht : towardOf rm sign = .zero) :
    v m ≤ y ∧ ∀ k, v k ≤ y → v k ≤ v m := by
  obtain ⟨n, hle, hlt, hm⟩ := h
  have hnot : ¬UpFrom v rm sign y n := by
    cases rm <;> cases sign <;> simp_all [towardOf, UpFrom]
  obtain rfl := (hm.resolve_left fun hup => hnot hup.1).2
  exact ⟨hle, fun k hk => hv.monotone (Nat.le_of_lt_succ (hv.lt_iff_lt.1 (hk.trans_lt hlt)))⟩

/-- Away from zero the rounding is the least place not below y. -/
theorem RoundsOn.toward_away (hv : StrictMono v) (h : RoundsOn v rm sign y m) (ht : towardOf rm sign = .away) :
    y ≤ v m ∧ ∀ k, y ≤ v k → v m ≤ v k := by
  obtain ⟨n, hle, hlt, hm⟩ := h
  have hup : UpFrom v rm sign y n ↔ v n < y := by
    cases rm <;> cases sign <;> simp_all [towardOf, UpFrom]
  rw [hup] at hm
  rcases hm with ⟨hbelow, rfl⟩ | ⟨hnot, rfl⟩
  · exact ⟨hlt.le, fun k hk => hv.monotone (hv.lt_iff_lt.1 (hbelow.trans_le hk))⟩
  · obtain rfl := hle.antisymm (not_lt.1 hnot)
    exact ⟨le_rfl, fun k hk => hk⟩

/-- To nearest, no place is nearer to y than the rounding, and one that is as near is odd for rne or not larger for rmm. -/
theorem RoundsOn.toward_nearest (hv : StrictMono v) (h : RoundsOn v rm sign y m) (ht : towardOf rm sign = .nearest) (k : Nat) :
    |v m - y| ≤ |v k - y|
      ∧ (|v m - y| = |v k - y| → v m ≠ v k → (rm = .rne → m % 2 = 0) ∧ (rm = .rmm → v k ≤ v m)) := by
  obtain ⟨n, hle, hlt, hm⟩ := h
  have hup : UpFrom v rm sign y n ↔ v n + v (n + 1) < 2 * y ∨ (v n + v (n + 1) = 2 * y ∧ (rm = .rne → n % 2 = 1)) := by
    cases rm <;> cases sign <;> simp_all [towardOf, UpFrom, le_iff_lt_or_eq]
  rw [hup] at hm
  have hk : v k ≤ v n ∨ v (n + 1) ≤ v k :=
    (Nat.lt_or_ge n k).symm.imp (fun h => hv.monotone h) (fun h => hv.monotone h)
  have hvk : |v k - y| = if v k ≤ v n then y - v k else v k - y := by
    split
    · rw [abs_sub_comm, abs_of_nonneg (by linarith)]
    · rw [abs_of_nonneg (by have := hk.resolve_left ‹_›; linarith)]
  rw [hvk]
  rcases hm with ⟨hyes, rfl⟩ | ⟨hno, rfl⟩
  · rw [abs_of_nonneg (sub_nonneg.2 hlt.le)]
    split
    · next hbelow =>
      refine ⟨by rcases hyes with h | ⟨h, -⟩ <;> linarith, fun htie _ => ⟨fun hrm => ?_, fun _ => by linarith⟩⟩
      have hodd := (hyes.resolve_left fun h => by linarith).2 hrm
      omega
    · next habove =>
      have hge := hk.resolve_left habove
      exact ⟨by linarith, fun htie hne => absurd (by linarith) hne⟩
  · have hmid : 2 * y ≤ v m + v (m + 1) := le_of_not_gt fun h => hno (.inl h)
    rw [abs_sub_comm, abs_of_nonneg (sub_nonneg.2 hle)]
    split
    · next hbelow => exact ⟨by linarith, fun htie hne => absurd (by linarith) hne⟩
    · next habove =>
      have hge := hk.resolve_left habove
      refine ⟨by linarith, fun htie _ => ?_⟩
      have hodd : ¬(rm = .rne → m % 2 = 1) := fun h => hno (.inr ⟨by linarith, h⟩)
      rw [Classical.not_imp] at hodd
      exact ⟨fun _ => by omega, fun hrm => absurd (hodd.1.symm.trans hrm) (by decide)⟩

end

section
variable {fmt : FloatFormat} {rm : RoundingMode} {sign : Bool} {x : ℝ} {m : Nat}

/-- A number is its magnitude under its sign. -/
theorem sgn_mul_abs (hsign : sign = decide (x < 0)) : sgn sign * |x| = x := by
  subst hsign
  rcases lt_or_ge x 0 with h | h
  · simp [sgn, h, abs_of_neg h]
  · simp [sgn, h.not_gt, abs_of_nonneg h]

theorem realOf_withSign (hm : m < 2 ^ (fmt.width - 1)) : realOf fmt (withSign fmt sign m) = sgn sign * magReal fmt m := by
  rw [realOf_eq, negative_withSign fmt sign hm, magnitude_withSign fmt sign hm]

theorem abs_realOf (v : Word) : |realOf fmt v| = magReal fmt (magnitude fmt v) := by
  rw [realOf_eq, abs_mul, abs_sgn, one_mul, abs_of_nonneg (magReal_nonneg fmt _)]

/-- The sign of a pattern does not make its number even or odd. -/
theorem withSign_mod_two (hm : m < 2 ^ (fmt.width - 1)) : (withSign fmt sign m).toNat % 2 = m % 2 := by
  have heven : 2 ^ (fmt.width - 1) % 2 = 0 := by cases fmt <;> rfl
  rw [withSign_toNat fmt sign hm]
  split <;> omega

/-- The nearest magnitude under the sign of x is the nearest number: one of the other sign is not nearer, and as near only if it is
zero. -/
theorem nearest_of_magnitude {y z : ℝ} {n : Nat} (hx : x ≠ 0) (hsign : sign = decide (x < 0))
    (hy : y = sgn sign * magReal fmt n) (hnear : abs (magReal fmt n - |x|) ≤ abs (|z| - |x|)) :
    |y - x| ≤ |z - x|
      ∧ (|y - x| = |z - x| → y ≠ z → abs (magReal fmt n - |x|) = abs (|z| - |x|) ∧ magReal fmt n ≠ |z|) := by
  have hdist : |y - x| = abs (magReal fmt n - |x|) := by
    conv_lhs => rw [hy, ← sgn_mul_abs hsign, ← mul_sub, abs_mul, abs_sgn, one_mul]
  have habs : abs (|z| - |x|) ≤ |z - x| := abs_abs_sub_abs_le z x
  rw [hdist]
  refine ⟨hnear.trans habs, fun htie hne => ⟨le_antisymm hnear (htie ▸ habs), fun heq => hne ?_⟩⟩
  have hsame : |y| = |z| := by rw [hy, abs_mul, abs_sgn, one_mul, abs_of_nonneg (magReal_nonneg fmt n), heq]
  refine (abs_eq_abs.1 hsame).elim id fun hopp => ?_
  rcases abs_eq_abs.1 (hdist.trans htie) with h | h
  · linarith
  · exact absurd (by linarith) hx

/-- The place among the magnitudes, under the sign of x, is the rounding of x (44_f_single.md R302). -/
theorem RoundsOn.roundsTo (h : RoundsOn (magReal fmt) rm sign |x| m) (hx : x ≠ 0) (hsign : sign = decide (x < 0))
    (hm : m < 2 ^ (fmt.width - 1)) : RoundsTo fmt rm x (withSign fmt sign m) := by
  have hv := magReal_strictMono fmt
  have hres : realOf fmt (withSign fmt sign m) = sgn sign * magReal fmt m := realOf_withSign hm
  have hx' := sgn_mul_abs hsign
  have hnonneg := magReal_nonneg fmt m
  have hxpos := abs_pos.2 hx
  cases rm with
  | rdn =>
    cases sign
    · obtain ⟨hle, hbest⟩ := h.toward_zero hv rfl
      simp only [sgn, Bool.false_eq_true, if_false, one_mul] at hres hx'
      refine ⟨by linarith, fun z _ hz => ?_⟩
      rcases abs_choice (realOf fmt z) with hz' | hz' <;> rw [abs_realOf] at hz'
      · linarith [hbest _ (by linarith : magReal fmt (magnitude fmt z) ≤ |x|)]
      · linarith [magReal_nonneg fmt (magnitude fmt z)]
    · obtain ⟨hle, hbest⟩ := h.toward_away hv rfl
      simp only [sgn, if_true, neg_one_mul] at hres hx'
      refine ⟨by linarith, fun z _ hz => ?_⟩
      rcases abs_choice (realOf fmt z) with hz' | hz' <;> rw [abs_realOf] at hz'
      · linarith [magReal_nonneg fmt (magnitude fmt z)]
      · linarith [hbest _ (by linarith : |x| ≤ magReal fmt (magnitude fmt z))]
  | rup =>
    cases sign
    · obtain ⟨hle, hbest⟩ := h.toward_away hv rfl
      simp only [sgn, Bool.false_eq_true, if_false, one_mul] at hres hx'
      refine ⟨by linarith, fun z _ hz => ?_⟩
      rcases abs_choice (realOf fmt z) with hz' | hz' <;> rw [abs_realOf] at hz'
      · linarith [hbest _ (by linarith : |x| ≤ magReal fmt (magnitude fmt z))]
      · linarith [magReal_nonneg fmt (magnitude fmt z)]
    · obtain ⟨hle, hbest⟩ := h.toward_zero hv rfl
      simp only [sgn, if_true, neg_one_mul] at hres hx'
      refine ⟨by linarith, fun z _ hz => ?_⟩
      rcases abs_choice (realOf fmt z) with hz' | hz' <;> rw [abs_realOf] at hz'
      · linarith [magReal_nonneg fmt (magnitude fmt z)]
      · linarith [hbest _ (by linarith : magReal fmt (magnitude fmt z) ≤ |x|)]
  | rtz =>
    obtain ⟨hle, hbest⟩ := h.toward_zero hv rfl
    simp only [RoundsTo, abs_realOf, magnitude_withSign fmt sign hm]
    exact ⟨hle, fun z _ hz => hbest _ hz⟩
  | rne =>
    intro z _
    obtain ⟨hnear, htie⟩ := h.toward_nearest hv rfl (magnitude fmt z)
    rw [← abs_realOf z] at hnear htie
    obtain ⟨hle, hsame⟩ := nearest_of_magnitude hx hsign hres hnear
    refine ⟨hle, fun heq hne => ?_⟩
    obtain ⟨heq', hne'⟩ := hsame heq hne
    rw [withSign_mod_two hm]
    exact (htie heq' hne').1 rfl
  | rmm =>
    intro z _
    obtain ⟨hnear, htie⟩ := h.toward_nearest hv rfl (magnitude fmt z)
    rw [← abs_realOf z] at hnear htie
    obtain ⟨hle, hsame⟩ := nearest_of_magnitude hx hsign hres hnear
    refine ⟨hle, fun heq => ?_⟩
    rw [abs_realOf (withSign fmt sign m), magnitude_withSign fmt sign hm]
    by_cases hne : realOf fmt (withSign fmt sign m) = realOf fmt z
    · rw [← hne, abs_realOf, magnitude_withSign fmt sign hm]
    · obtain ⟨heq', hne'⟩ := hsame heq hne
      exact (htie heq' hne').2 rfl

end

/-! ## `roundFloat` -/

section
variable {fmt : FloatFormat} {rm : RoundingMode} {sign : Bool} {mant : Nat} {exp : Int} {x : ℝ}

theorem overflowMagnitude_eq (fmt : FloatFormat) (rm : RoundingMode) (sign : Bool) :
    overflowMagnitude fmt rm sign = if towardOf rm sign = .zero then fmt.infBits - 1 else fmt.infBits := by
  cases rm <;> cases sign <;> rfl

/-- The fields of a pattern of a given magnitude. -/
theorem fields_withSign {m : Nat} (hm : m < 2 ^ (fmt.width - 1)) :
    expField fmt (withSign fmt sign m) = m / 2 ^ fmt.fracBits ∧ fracField fmt (withSign fmt sign m) = m % 2 ^ fmt.fracBits := by
  rw [← magnitude_div, ← magnitude_mod, magnitude_withSign fmt sign hm]
  exact ⟨rfl, rfl⟩

/-- The fields of the largest finite number (44_f_single.md R304 (d)). -/
theorem fields_infBits_sub_one (fmt : FloatFormat) :
    (fmt.infBits - 1) / 2 ^ fmt.fracBits = 2 ^ fmt.expBits - 2 ∧ (fmt.infBits - 1) % 2 ^ fmt.fracBits = 2 ^ fmt.fracBits - 1 := by
  cases fmt <;> decide

/-- A result with its magnitude on the scale of the format is the number rounded once, when its flags say whether it overflows, is
exact and is tiny (44_f_single.md R304 (d) to (g)). -/
theorem roundedOnce_of_roundsOn {m : Nat} {inexact tiny : Bool} (hx : x ≠ 0) (hsign : sign = decide (x < 0))
    (h : RoundsOn (magReal fmt) rm sign |x| m) (hinexact : inexact = false ↔ magReal fmt m = |x|)
    (htiny : tiny = true ↔ Tiny fmt rm sign x) :
    RoundedOnce fmt rm x
      (if m ≥ fmt.infBits then (withSign fmt sign (overflowMagnitude fmt rm sign), flagOF ||| flagNX)
       else (withSign fmt sign m, flagIf inexact flagNX ||| flagIf (inexact && tiny) flagUF)) := by
  have hover := h.overflows_iff
  have hinf := infBits_lt fmt
  unfold RoundedOnce
  rw [← hsign]
  split
  · next hge =>
    have hmag : overflowMagnitude fmt rm sign < 2 ^ (fmt.width - 1) := by
      rw [overflowMagnitude_eq]
      split <;> omega
    refine ⟨withSign_lt fmt sign hmag, negative_withSign fmt sign hmag, fun _ => ⟨rfl, ?_⟩,
      fun hnot => absurd (hover.1 hge) hnot⟩
    dsimp only
    split
    · next ht =>
      obtain ⟨hexp, hfrac⟩ := fields_withSign (sign := sign) hmag
      rw [hexp, hfrac, overflowMagnitude_eq, if_pos ht]
      exact fields_infBits_sub_one fmt
    · next ht => rw [isInf_iff, magnitude_withSign fmt sign hmag, overflowMagnitude_eq, if_neg ht]
  · next hlt =>
    have hm : m < 2 ^ (fmt.width - 1) := by omega
    have hexact : realOf fmt (withSign fmt sign m) = x ↔ inexact = false := by
      rw [hinexact, realOf_withSign hm]
      conv_lhs => rhs; rw [← sgn_mul_abs hsign]
      exact mul_right_inj' (by cases sign <;> simp [sgn])
    refine ⟨withSign_lt fmt sign hm, negative_withSign fmt sign hm, fun hyes => absurd (hover.2 hyes) hlt,
      fun _ => ⟨?_, ?_, ?_, ?_, ?_⟩⟩
    · rw [isFinite_iff, magnitude_withSign fmt sign hm]
      omega
    · exact h.roundsTo hx hsign hm
    · intro heq
      simp [hexact.1 heq, flagIf]
    · intro hne ht
      rw [Bool.eq_true_of_not_eq_false fun hf => hne (hexact.2 hf), htiny.2 ht]
      rfl
    · intro hne ht
      rw [Bool.eq_true_of_not_eq_false fun hf => hne (hexact.2 hf), Bool.eq_false_of_not_eq_true fun hf => ht (htiny.1 hf)]
      rfl

/-- `roundFloat` rounds once what it is given (44_f_single.md R302, R304). -/
theorem roundFloat_roundedOnce (hm : 0 < mant) (h : Held fmt.fracBits mant exp |x|) (hx : x ≠ 0)
    (hsign : sign = decide (x < 0)) : RoundedOnce fmt rm x (roundFloat fmt rm sign mant exp) := by
  obtain ⟨hlow, hhigh⟩ := h.binade hm
  set top := exp + (mant.log2 : Int) with htop
  obtain ⟨g, hg⟩ : ∃ g : Nat, max (top - (fmt.fracBits : Int)) fmt.unitExp = fmt.unitExp + g :=
    ⟨(max (top - (fmt.fracBits : Int)) fmt.unitExp - fmt.unitExp).toNat, by omega⟩
  obtain ⟨hgrid, hexact⟩ := roundToGrid_spec (rm := rm) (sign := sign) (h.heldFor (grid := fmt.unitExp + g) (by omega))
  have hupper : |x| < 2 * 2 ^ fmt.fracBits * 2 ^ (fmt.unitExp + g) := by
    refine hhigh.trans_le ?_
    rw [← zpow_natCast, ← zpow_one_add₀ two_ne_zero, ← zpow_add₀ two_ne_zero]
    exact zpow_le_zpow_right₀ one_le_two (by omega)
  have hlower : g = 0 ∨ 2 ^ fmt.fracBits * 2 ^ (fmt.unitExp + g) ≤ |x| := by
    refine or_iff_not_imp_left.2 fun hg0 => le_trans ?_ hlow
    rw [← zpow_natCast, ← zpow_add₀ two_ne_zero]
    exact zpow_le_zpow_right₀ one_le_two (by omega)
  obtain ⟨hplace, hvalue⟩ := hgrid.to_magReal hupper hlower
  have htiny := tiny_iff (rm := rm) (sign := sign) h hm htop rfl rfl
  unfold roundFloat
  rw [← htop]
  dsimp only
  rw [hg, add_sub_cancel_left, Int.toNat_natCast]
  refine roundedOnce_of_roundsOn hx hsign hplace ?_ ?_
  · rw [hexact, hvalue]
  · rw [← htiny]
    simp

end

end Sys2Proof.Machine
end

section
/-! Proofs about the numeric functions of floating point (44_f_single.md R304, R305, R308): results that are a NaN, an infinity or a
zero, and results that are rounded once. -/

namespace Sys2Proof.Machine

/-! ## What values stand for -/

/-- A value of the extended reals that is finite, as the sign and the number it stands for. -/
def FpVal.Stands : FpVal → Bool → ℝ → Prop
  | .zero sign, neg, x => sign = neg ∧ x = 0
  | .finite sign m e, neg, x => sign = neg ∧ 0 < m ∧ x = sgn neg * (m * 2 ^ e)
  | _, _, _ => False

/-- What stands for a number is neither a NaN nor an infinity. -/
theorem FpVal.Stands.number {p : FpVal} {s : Bool} {x : ℝ} (h : p.Stands s x) : p.isNan = false ∧ ∀ t, p ≠ .inf t := by
  cases p with
  | nan => exact h.elim
  | inf => exact h.elim
  | zero => exact ⟨rfl, fun _ => nofun⟩
  | finite => exact ⟨rfl, fun _ => nofun⟩

section
variable {fmt : FloatFormat} {rm : RoundingMode} {v a b : Word}

/-- A finite pattern stands for its number. -/
theorem unpack_stands (h : IsFinite fmt v) : (unpack fmt v).Stands (negative fmt v) (realOf fmt v) := by
  by_cases h0 : IsZero fmt v
  · rw [unpack_of_zero h0]
    exact ⟨rfl, realOf_eq_zero_iff.2 h0⟩
  · obtain ⟨m, e, hv, hm, hreal⟩ := unpack_of_finite h h0
    rw [hv]
    exact ⟨rfl, hm, by rw [realOf_eq, hreal]⟩

theorem isNan_unpack (fmt : FloatFormat) (v : Word) : (unpack fmt v).isNan = decide (IsNan fmt v) := by
  rcases nan_or_inf_or_zero_or_finite fmt v with h | h | h | ⟨h, h0⟩
  · rw [unpack_of_nan h, decide_eq_true h]
    rfl
  · rw [unpack_of_inf h, decide_eq_false fun hn => hn.2 h.2]
    rfl
  · rw [unpack_of_zero h, decide_eq_false fun hn => hn.2 h.2]
    rfl
  · obtain ⟨m, e, hv, -⟩ := unpack_of_finite h h0
    rw [hv, decide_eq_false fun hn => h hn.1]
    rfl

theorem isSignaling_unpack (fmt : FloatFormat) (v : Word) : (unpack fmt v).isSignaling = decide (IsSnan fmt v) := by
  by_cases h : IsNan fmt v
  · rw [unpack_of_nan h]
    rfl
  · rw [decide_eq_false fun hs => h hs.1]
    have hnan := isNan_unpack fmt v
    rw [decide_eq_false h] at hnan
    revert hnan
    cases unpack fmt v <;> simp [FpVal.isNan, FpVal.isSignaling]

/-- Two numbers that are not NaNs. -/
theorem isNan_or_eq_false (ha : ¬IsNan fmt a) (hb : ¬IsNan fmt b) : ((unpack fmt a).isNan || (unpack fmt b).isNan) = false := by
  rw [isNan_unpack, isNan_unpack, decide_eq_false ha, decide_eq_false hb]
  rfl

/-- A NaN among two operands. -/
theorem isNan_or_eq_true (h : IsNan fmt a ∨ IsNan fmt b) : ((unpack fmt a).isNan || (unpack fmt b).isNan) = true := by
  rw [isNan_unpack, isNan_unpack]
  simpa only [Bool.or_eq_true, decide_eq_true_eq] using h

theorem IsFinite.not_nan (h : IsFinite fmt v) : ¬IsNan fmt v := fun hn => h hn.1

theorem IsInf.not_nan (h : IsInf fmt v) : ¬IsNan fmt v := fun hn => hn.2 h.2

/-! ## Results that are not rounded -/

theorem givesInf_infResult (fmt : FloatFormat) (sign : Bool) : GivesInf fmt sign (infResult fmt sign) :=
  have hlt := infBits_lt fmt
  ⟨withSign_lt fmt sign hlt, isInf_iff.2 (magnitude_withSign fmt sign hlt), negative_withSign fmt sign hlt, rfl⟩

theorem givesZero_zeroResult (fmt : FloatFormat) (sign : Bool) : GivesZero fmt sign (zeroResult fmt sign) :=
  have hlt := Nat.two_pow_pos (fmt.width - 1)
  ⟨withSign_lt fmt sign hlt, isZero_iff.2 (magnitude_withSign fmt sign hlt), negative_withSign fmt sign hlt, rfl⟩

/-- The flag of a result that is a NaN. -/
theorem nanResult_decide (fmt : FloatFormat) (p : Prop) [Decidable p] :
    nanResult fmt (decide p) = (fmt.nan, if p then flagNV else 0#5) := by
  simp [nanResult, flagIf]

/-! ## Sums -/

theorem fpAdd_of_nan (rm : RoundingMode) (h : IsNan fmt a ∨ IsNan fmt b) :
    fpAdd fmt rm a b = (fmt.nan, if IsSnan fmt a ∨ IsSnan fmt b then flagNV else 0#5) := by
  simp only [fpAdd, isNan_or_eq_true h, if_true, isSignaling_unpack, ← Bool.decide_or, nanResult_decide]

theorem fpAdd_of_numbers (rm : RoundingMode) (ha : ¬IsNan fmt a) (hb : ¬IsNan fmt b) :
    fpAdd fmt rm a b = addVal fmt rm (unpack fmt a) (unpack fmt b) := by
  simp only [fpAdd, isNan_or_eq_false ha hb, Bool.false_eq_true, if_false]

/-- A magnitude that is held for the precision, under a sign, is rounded once. -/
theorem roundFloat_of_held {m : Nat} {e : Int} {neg : Bool} {x y : ℝ} (hm : 0 < m) (hy : 0 < y) (h : Held fmt.fracBits m e y)
    (hx : x = sgn neg * y) : x ≠ 0 ∧ RoundedOnce fmt rm x (roundFloat fmt rm neg m e) := by
  have habs : |x| = y := by rw [hx, abs_mul, abs_sgn, one_mul, abs_of_pos hy]
  have hne : x ≠ 0 := by rwa [← abs_pos, habs]
  have hneg : neg = decide (x < 0) := by
    rw [hx]
    cases neg
    · simpa [sgn] using hy.le
    · simpa [sgn] using hy
  exact ⟨hne, roundFloat_roundedOnce hm (habs.symm ▸ h) hne hneg⟩

/-- A number given by a mantissa and an exponent is rounded once. -/
theorem roundFloat_of_stands {m : Nat} {e : Int} {neg : Bool} {x : ℝ} (hm : 0 < m) (hx : x = sgn neg * (m * 2 ^ e)) :
    x ≠ 0 ∧ RoundedOnce fmt rm x (roundFloat fmt rm neg m e) :=
  roundFloat_of_held hm (by positivity) (.inl rfl) hx

/-- The number of an integer mantissa. -/
theorem signedMant_cast (sign : Bool) (m : Nat) : ((signedMant sign m : Int) : ℝ) = sgn sign * m := by
  cases sign <;> simp [signedMant, sgn]

/-- An integer is its magnitude under its sign. -/
theorem intCast_eq_sgn (z : Int) : (z : ℝ) = sgn (decide (z < 0)) * (z.natAbs : ℝ) := by
  rcases lt_or_ge z 0 with h | h
  · have : ((z.natAbs : Int) : ℝ) = -z := by rw [Int.ofNat_natAbs_of_nonpos h.le]; push_cast; rfl
    rw [Int.cast_natCast] at this
    simp [sgn, h, this]
  · have : ((z.natAbs : Int) : ℝ) = z := by rw [Int.natAbs_of_nonneg h]
    rw [Int.cast_natCast] at this
    simp [sgn, h.not_gt, this]

/-- The sum of two finite numbers that are not zero (44_f_single.md R304). -/
theorem addFinite_spec {sa sb : Bool} {ma mb : Nat} {ea eb : Int} {x y : ℝ} (hx : x = sgn sa * (ma * 2 ^ ea))
    (hy : y = sgn sb * (mb * 2 ^ eb)) :
    (x + y ≠ 0 → RoundedOnce fmt rm (x + y) (addFinite fmt rm sa ma ea sb mb eb))
      ∧ (x + y = 0 → GivesZero fmt (decide (rm = .rdn)) (addFinite fmt rm sa ma ea sb mb eb)) := by
  set e := min ea eb with he
  set sum := signedMant sa (ma * 2 ^ (ea - e).toNat) + signedMant sb (mb * 2 ^ (eb - e).toNat) with hsum
  have hshift : ∀ {f : Int}, e ≤ f → (2 : ℝ) ^ (f - e).toNat * 2 ^ e = 2 ^ f := fun {f} hf => by
    rw [← zpow_natCast, ← zpow_add₀ two_ne_zero, Int.toNat_of_nonneg (by omega), Int.sub_add_cancel]
  have hvalue : x + y = sum * 2 ^ e := by
    rw [hsum, Int.cast_add, signedMant_cast, signedMant_cast, hx, hy, ← hshift (min_le_left ea eb),
      ← hshift (min_le_right ea eb)]
    push_cast
    ring
  have hzero : x + y = 0 ↔ sum = 0 := by
    rw [hvalue, mul_eq_zero, or_iff_left (by positivity), Int.cast_eq_zero]
  have hdef : addFinite fmt rm sa ma ea sb mb eb
      = if sum = 0 then zeroResult fmt (zeroSumSign rm) else roundFloat fmt rm (decide (sum < 0)) sum.natAbs e := rfl
  rw [hdef]
  constructor
  · intro hne
    have hsumne : sum ≠ 0 := fun h => hne (hzero.2 h)
    rw [if_neg hsumne]
    refine (roundFloat_of_stands (Int.natAbs_pos.2 hsumne) ?_).2
    rw [hvalue, intCast_eq_sgn, mul_assoc]
  · intro h
    rw [if_pos (hzero.1 h)]
    exact givesZero_zeroResult fmt _

/-- The sum of two finite values: rounded once, or a zero whose sign is theirs or that of the direction (44_f_single.md R304). -/
theorem addVal_spec {p q : FpVal} {s t : Bool} {x y : ℝ} (hp : p.Stands s x) (hq : q.Stands t y) :
    (x + y ≠ 0 → RoundedOnce fmt rm (x + y) (addVal fmt rm p q))
      ∧ (x = 0 → y = 0 → s = t → GivesZero fmt s (addVal fmt rm p q))
      ∧ (x + y = 0 → ¬(x = 0 ∧ s = t) → GivesZero fmt (decide (rm = .rdn)) (addVal fmt rm p q)) := by
  match p, q, hp, hq with
  | .zero _, .zero _, ⟨rfl, hx⟩, ⟨rfl, hy⟩ =>
    refine ⟨fun hne => absurd (by rw [hx, hy, add_zero]) hne, fun _ _ hsign => ?_, fun _ hnot => ?_⟩
    · rw [addVal, if_pos hsign]
      exact givesZero_zeroResult fmt _
    · rw [addVal, if_neg fun hsign => hnot ⟨hx, hsign⟩]
      exact givesZero_zeroResult fmt _
  | .zero _, .finite _ m e, ⟨rfl, hx⟩, ⟨rfl, hm, hy⟩ =>
    obtain ⟨hne, hround⟩ := roundFloat_of_stands (fmt := fmt) (rm := rm) hm hy
    rw [hx, zero_add]
    exact ⟨fun _ => hround, fun _ h => absurd h hne, fun h => absurd h hne⟩
  | .finite _ m e, .zero _, ⟨rfl, hm, hx⟩, ⟨rfl, hy⟩ =>
    obtain ⟨hne, hround⟩ := roundFloat_of_stands (fmt := fmt) (rm := rm) hm hx
    rw [hy, add_zero]
    exact ⟨fun _ => hround, fun h => absurd h hne, fun h => absurd h hne⟩
  | .finite _ m e, .finite _ m' e', ⟨rfl, hm, hx⟩, ⟨rfl, hm', hy⟩ =>
    obtain ⟨hround, hzero⟩ := addFinite_spec (fmt := fmt) (rm := rm) hx hy
    exact ⟨hround, fun h => absurd h (roundFloat_of_stands (fmt := fmt) (rm := rm) hm hx).1, fun h _ => hzero h⟩

/-- An infinity and a value that is no infinity of the other sign. -/
theorem addVal_inf_left {q : FpVal} {s : Bool} (hnan : q.isNan = false) (hq : ∀ t, q = .inf t → t = s) :
    addVal fmt rm (.inf s) q = infResult fmt s := by
  cases q with
  | nan => nomatch hnan
  | inf t => rw [addVal, if_pos (hq t rfl).symm]
  | zero => rfl
  | finite => rfl

theorem addVal_inf_right {p : FpVal} {s : Bool} (hnan : p.isNan = false) (hp : ∀ t, p = .inf t → t = s) :
    addVal fmt rm p (.inf s) = infResult fmt s := by
  cases p with
  | nan => nomatch hnan
  | inf t => rw [addVal, if_pos (hp t rfl), hp t rfl]
  | zero => rfl
  | finite => rfl

/-- `unpack` reads an infinity of an infinity only. -/
theorem eq_negative_of_unpack_eq_inf {t : Bool} (h : unpack fmt v = .inf t) : IsInf fmt v ∧ t = negative fmt v := by
  rcases nan_or_inf_or_zero_or_finite fmt v with hv | hv | hv | ⟨hv, h0⟩
  · rw [unpack_of_nan hv] at h
    nomatch h
  · rw [unpack_of_inf hv] at h
    exact ⟨hv, (FpVal.inf.inj h).symm⟩
  · rw [unpack_of_zero hv] at h
    nomatch h
  · obtain ⟨m, e, hfin, -⟩ := unpack_of_finite hv h0
    rw [hfin] at h
    nomatch h

/-! ## Products -/

/-- The product of two finite values (44_f_single.md R304). -/
theorem mulVal_stands {p q : FpVal} {s t : Bool} {x y : ℝ} (hp : p.Stands s x) (hq : q.Stands t y) :
    ∃ r, mulVal p q = some r ∧ r.Stands (s != t) (x * y) := by
  match p, q, hp, hq with
  | .zero _, .zero _, ⟨rfl, hx⟩, ⟨rfl, hy⟩ => exact ⟨_, rfl, rfl, by rw [hx, zero_mul]⟩
  | .zero _, .finite _ m e, ⟨rfl, hx⟩, ⟨rfl, hm, hy⟩ => exact ⟨_, rfl, rfl, by rw [hx, zero_mul]⟩
  | .finite _ m e, .zero _, ⟨rfl, hm, hx⟩, ⟨rfl, hy⟩ => exact ⟨_, rfl, rfl, by rw [hy, mul_zero]⟩
  | .finite _ m e, .finite _ m' e', ⟨rfl, hm, hx⟩, ⟨rfl, hm', hy⟩ =>
    refine ⟨_, rfl, rfl, Nat.mul_pos hm hm', ?_⟩
    rw [hx, hy, sgn_xor, zpow_add₀ two_ne_zero]
    push_cast
    ring

/-- The product is read off the operands: finite, infinite or invalid (44_f_single.md R304 (b)). -/
theorem mulVal_of_finite (ha : IsFinite fmt a) (hb : IsFinite fmt b) :
    ∃ r, mulVal (unpack fmt a) (unpack fmt b) = some r ∧ r.Stands (productSign fmt a b) (realOf fmt a * realOf fmt b) :=
  mulVal_stands (unpack_stands ha) (unpack_stands hb)

theorem mulVal_of_infinite (h : InfiniteProduct fmt a b) :
    mulVal (unpack fmt a) (unpack fmt b) = some (.inf (productSign fmt a b)) := by
  have key : ∀ {u v : Word}, IsInf fmt u → ¬IsNan fmt v → ¬IsZero fmt v →
      mulVal (unpack fmt u) (unpack fmt v) = some (.inf (productSign fmt u v))
        ∧ mulVal (unpack fmt v) (unpack fmt u) = some (.inf (productSign fmt v u)) := by
    intro u v hu hnan h0
    rw [unpack_of_inf hu]
    rcases nan_or_inf_or_zero_or_finite fmt v with hv | hv | hv | ⟨hv, -⟩
    · exact absurd hv hnan
    · rw [unpack_of_inf hv]
      exact ⟨rfl, rfl⟩
    · exact absurd hv h0
    · obtain ⟨m, e, hfin, -⟩ := unpack_of_finite hv h0
      rw [hfin]
      exact ⟨rfl, rfl⟩
  rcases h with ⟨ha, hb, hb0⟩ | ⟨hb, ha, ha0⟩
  · exact (key ha hb hb0).1
  · exact (key hb ha ha0).2

theorem mulVal_of_invalid (h : (IsInf fmt a ∧ IsZero fmt b) ∨ (IsZero fmt a ∧ IsInf fmt b)) :
    mulVal (unpack fmt a) (unpack fmt b) = none := by
  rcases h with ⟨ha, hb⟩ | ⟨ha, hb⟩
  · rw [unpack_of_inf ha, unpack_of_zero hb]
    rfl
  · rw [unpack_of_zero ha, unpack_of_inf hb]
    rfl

/-- Two operands that are no NaN and not a zero and an infinity have a product. -/
theorem mulVal_isSome (ha : ¬IsNan fmt a) (hb : ¬IsNan fmt b) (h : ¬(IsInf fmt a ∧ IsZero fmt b))
    (h' : ¬(IsZero fmt a ∧ IsInf fmt b)) : ∃ r, mulVal (unpack fmt a) (unpack fmt b) = some r := by
  by_cases hfa : IsFinite fmt a
  · by_cases hfb : IsFinite fmt b
    · obtain ⟨r, hr, -⟩ := mulVal_of_finite hfa hfb
      exact ⟨r, hr⟩
    · have hinf : IsInf fmt b := ⟨not_not.1 hfb, by_contra fun hne => hb ⟨not_not.1 hfb, hne⟩⟩
      exact ⟨_, mulVal_of_infinite (.inr ⟨hinf, ha, fun h0 => h' ⟨h0, hinf⟩⟩)⟩
  · have hinf : IsInf fmt a := ⟨not_not.1 hfa, by_contra fun hne => ha ⟨not_not.1 hfa, hne⟩⟩
    exact ⟨_, mulVal_of_infinite (.inl ⟨hinf, hb, fun h0 => h ⟨hinf, h0⟩⟩)⟩

theorem roundVal_spec {p : FpVal} {s : Bool} {x : ℝ} (hp : p.Stands s x) :
    (x ≠ 0 → RoundedOnce fmt rm x (roundVal fmt rm p)) ∧ (x = 0 → GivesZero fmt s (roundVal fmt rm p)) := by
  match p, hp with
  | .zero _, ⟨rfl, hx⟩ => exact ⟨fun hne => absurd hx hne, fun _ => givesZero_zeroResult fmt _⟩
  | .finite _ m e, ⟨rfl, hm, hx⟩ =>
    obtain ⟨hne, hround⟩ := roundFloat_of_stands (fmt := fmt) (rm := rm) hm hx
    exact ⟨fun _ => hround, fun h => absurd h hne⟩

theorem fpMul_of_nan (rm : RoundingMode) (h : IsNan fmt a ∨ IsNan fmt b) :
    fpMul fmt rm a b = (fmt.nan, if IsSnan fmt a ∨ IsSnan fmt b then flagNV else 0#5) := by
  simp only [fpMul, isNan_or_eq_true h, if_true, isSignaling_unpack, ← Bool.decide_or, nanResult_decide]

theorem fpMul_of_some (rm : RoundingMode) (ha : ¬IsNan fmt a) (hb : ¬IsNan fmt b) {r : FpVal}
    (hr : mulVal (unpack fmt a) (unpack fmt b) = some r) : fpMul fmt rm a b = roundVal fmt rm r := by
  simp only [fpMul, isNan_or_eq_false ha hb, Bool.false_eq_true, if_false, hr]

theorem fpMul_of_none (rm : RoundingMode) (ha : ¬IsNan fmt a) (hb : ¬IsNan fmt b)
    (hr : mulVal (unpack fmt a) (unpack fmt b) = none) : fpMul fmt rm a b = (fmt.nan, flagNV) := by
  simp only [fpMul, isNan_or_eq_false ha hb, Bool.false_eq_true, if_false, hr]
  rfl

/-! ## Fused products and sums -/

section
variable {c : Word}

theorem fpFma_of_nan_factor (rm : RoundingMode) (h : IsNan fmt a ∨ IsNan fmt b) (c : Word) :
    fpFma fmt rm a b c = (fmt.nan, if IsSnan fmt a ∨ IsSnan fmt b ∨ IsSnan fmt c then flagNV else 0#5) := by
  simp only [fpFma, isNan_or_eq_true h, if_true, isSignaling_unpack, ← Bool.decide_or, nanResult_decide, or_assoc]

theorem fpFma_of_none (rm : RoundingMode) (ha : ¬IsNan fmt a) (hb : ¬IsNan fmt b)
    (hr : mulVal (unpack fmt a) (unpack fmt b) = none) (c : Word) : fpFma fmt rm a b c = (fmt.nan, flagNV) := by
  simp only [fpFma, isNan_or_eq_false ha hb, Bool.false_eq_true, if_false, hr]
  rfl

theorem fpFma_of_nan_addend (rm : RoundingMode) (ha : ¬IsNan fmt a) (hb : ¬IsNan fmt b) {r : FpVal}
    (hr : mulVal (unpack fmt a) (unpack fmt b) = some r) (hc : IsNan fmt c) :
    fpFma fmt rm a b c = (fmt.nan, if IsSnan fmt c then flagNV else 0#5) := by
  have hsa : ¬IsSnan fmt a := fun h => ha h.1
  have hsb : ¬IsSnan fmt b := fun h => hb h.1
  have hcnan : (unpack fmt c).isNan = true := by rw [isNan_unpack, decide_eq_true hc]
  simp only [fpFma, isNan_or_eq_false ha hb, Bool.false_eq_true, if_false, hr, hcnan, if_true, isSignaling_unpack,
    decide_eq_false hsa, decide_eq_false hsb, Bool.false_or, nanResult_decide]

theorem fpFma_of_some (rm : RoundingMode) (ha : ¬IsNan fmt a) (hb : ¬IsNan fmt b) {r : FpVal}
    (hr : mulVal (unpack fmt a) (unpack fmt b) = some r) (hc : ¬IsNan fmt c) :
    fpFma fmt rm a b c = addVal fmt rm r (unpack fmt c) := by
  have hcnan : (unpack fmt c).isNan = false := by rw [isNan_unpack, decide_eq_false hc]
  simp only [fpFma, isNan_or_eq_false ha hb, Bool.false_eq_true, if_false, hr, hcnan]

end

/-- The operands of an infinite product are no NaNs. -/
theorem InfiniteProduct.not_nan (h : InfiniteProduct fmt a b) : ¬IsNan fmt a ∧ ¬IsNan fmt b := by
  rcases h with ⟨ha, hb, -⟩ | ⟨hb, ha, -⟩
  · exact ⟨ha.not_nan, hb⟩
  · exact ⟨ha, hb.not_nan⟩

end

/-- Settles O49: sums and products of the numbers the operands stand for, and the infinities. -/
theorem sumsAndProductsAreRoundedOnce : Obligations.SumsAndProductsAreRoundedOnce := by
  intro f m a b c sum product fused p
  refine ⟨fun ha hb => ?_, fun ha hb hc => ?_, fun ha hb hopp => ?_, fun h => ?_, fun h hc hopp => ?_, fun ha hb hc => ?_⟩
  · obtain ⟨r, hr, hstands⟩ := mulVal_of_finite ha hb
    obtain ⟨hsum, hzeros, hcancel⟩ := addVal_spec (fmt := f) (rm := m) (unpack_stands ha) (unpack_stands hb)
    obtain ⟨hround, hzero⟩ := roundVal_spec (fmt := f) (rm := m) hstands
    rw [fpAdd_of_numbers m ha.not_nan hb.not_nan, fpMul_of_some m ha.not_nan hb.not_nan hr]
    refine ⟨hsum, hround, fun ha0 hb0 => hzeros (realOf_eq_zero_iff.2 ha0) (realOf_eq_zero_iff.2 hb0), fun h0 hnot => ?_, hzero⟩
    refine hcancel h0 fun ⟨ha0, hsign⟩ => hnot ⟨realOf_eq_zero_iff.1 ha0, realOf_eq_zero_iff.1 ?_, hsign⟩
    linarith [show realOf f a + realOf f b = 0 from h0]
  · obtain ⟨r, hr, hstands⟩ := mulVal_of_finite ha hb
    obtain ⟨hsum, hzeros, hcancel⟩ := addVal_spec (fmt := f) (rm := m) hstands (unpack_stands hc)
    rw [fpFma_of_some m ha.not_nan hb.not_nan hr hc.not_nan]
    exact ⟨hsum, fun hp hc0 => hzeros hp (realOf_eq_zero_iff.2 hc0), hcancel⟩
  · have hnan : (unpack f b).isNan = false := by rw [isNan_unpack, decide_eq_false hb]
    have hsame : ∀ t, unpack f b = .inf t → t = negative f a := fun t ht => by
      obtain ⟨hinf, rfl⟩ := eq_negative_of_unpack_eq_inf ht
      exact (by_contra fun hne => hopp ⟨hinf, Ne.symm hne⟩)
    rw [fpAdd_of_numbers m ha.not_nan hb, fpAdd_of_numbers m hb ha.not_nan, unpack_of_inf ha, addVal_inf_left hnan hsame,
      addVal_inf_right hnan hsame]
    exact ⟨givesInf_infResult f _, givesInf_infResult f _⟩
  · rw [fpMul_of_some m h.not_nan.1 h.not_nan.2 (mulVal_of_infinite h)]
    exact givesInf_infResult f _
  · have hnan : (unpack f c).isNan = false := by rw [isNan_unpack, decide_eq_false hc]
    have hsame : ∀ t, unpack f c = .inf t → t = productSign f a b := fun t ht => by
      obtain ⟨hinf, rfl⟩ := eq_negative_of_unpack_eq_inf ht
      exact (by_contra fun hne => hopp ⟨hinf, Ne.symm hne⟩)
    rw [fpFma_of_some m h.not_nan.1 h.not_nan.2 (mulVal_of_infinite h) hc, addVal_inf_left hnan hsame]
    exact givesInf_infResult f _
  · obtain ⟨r, hr, hstands⟩ := mulVal_of_finite ha hb
    obtain ⟨hnan, hinf⟩ := hstands.number
    rw [fpFma_of_some m ha.not_nan hb.not_nan hr hc.not_nan, unpack_of_inf hc, addVal_inf_right hnan fun t ht => absurd ht (hinf t)]
    exact givesInf_infResult f _

end Sys2Proof.Machine
end

section
/-! Proofs about quotients, roots and conversions to floating point (44_f_single.md R304, R308), and about the invalid
operations. -/

namespace Sys2Proof.Machine

/-! ## Results held with a sticky bit -/

/-- The whole part of a number with enough bits, under a sticky bit that tells whether there is more to the number, holds it. -/
theorem held_jam {prec q : Nat} {exp : Int} {t : ℝ} {sticky : Bool} (hq : 2 ^ (prec + 1) ≤ q) (hexact : sticky = false → t = q)
    (hbetween : sticky = true → (q : ℝ) < t ∧ t < q + 1) :
    0 < jam q sticky ∧ Held prec (jam q sticky) exp (t * 2 ^ (exp + 1)) := by
  have hqpos : 0 < q := (Nat.two_pow_pos _).trans_le hq
  have hunit : (0 : ℝ) < 2 ^ exp := by positivity
  rw [zpow_add_one₀ two_ne_zero]
  cases sticky
  · refine ⟨by simpa [jam] using hqpos, .inl ?_⟩
    rw [hexact rfl, jam]
    push_cast
    ring
  · obtain ⟨hlow, hhigh⟩ := hbetween rfl
    have hjam : jam q true = 2 * q + 1 := rfl
    rw [hjam]
    refine ⟨Nat.succ_pos _, .inr ⟨by omega, ?_, ?_, ?_⟩⟩
    · rw [Nat.le_log2 (Nat.succ_ne_zero _), pow_succ]
      omega
    · push_cast
      nlinarith
    · push_cast
      nlinarith

section
variable {fmt : FloatFormat} {rm : RoundingMode} {v a b : Word}

/-! ## Quotients -/

/-- A quotient of naturals and its whole part: equal when there is no remainder, and less than one apart when there is. -/
theorem quotient_wholePart {n d : Nat} (hd : 0 < d) :
    (n % d = 0 → (n : ℝ) / d = (n / d : Nat)) ∧ (n % d ≠ 0 → ((n / d : Nat) : ℝ) < n / d ∧ (n : ℝ) / d < (n / d : Nat) + 1) := by
  have hdpos : (0 : ℝ) < d := by exact_mod_cast hd
  have hdiv := Nat.div_add_mod' n d
  have hrem := Nat.mod_lt n hd
  refine ⟨fun h => Nat.cast_div_charZero (Nat.dvd_of_mod_eq_zero h) |>.symm, fun h => ⟨?_, ?_⟩⟩
  · rw [lt_div_iff₀ hdpos]
    exact_mod_cast (by omega : n / d * d < n)
  · rw [div_lt_iff₀ hdpos]
    exact_mod_cast (by rw [Nat.succ_mul]; omega : n < (n / d + 1) * d)

/-- The quotient of two finite numbers that are not zero (44_f_single.md R304). -/
theorem divFinite_spec {sa sb : Bool} {ma mb : Nat} {ea eb : Int} {x y : ℝ} (hma : 0 < ma) (hmb : 0 < mb)
    (hx : x = sgn sa * (ma * 2 ^ ea)) (hy : y = sgn sb * (mb * 2 ^ eb)) :
    RoundedOnce fmt rm (x / y) (divFinite fmt rm (sa != sb) ma ea mb eb) := by
  set k := fmt.fracBits + 3 + mb.log2 with hk
  set n := ma * 2 ^ k with hn
  have hbits : 2 ^ (fmt.fracBits + 1) ≤ n / mb := by
    rw [Nat.le_div_iff_mul_le hmb]
    calc 2 ^ (fmt.fracBits + 1) * mb ≤ 2 ^ (fmt.fracBits + 1) * 2 ^ (mb.log2 + 1) :=
          Nat.mul_le_mul_left _ Nat.lt_log2_self.le
      _ = 2 ^ (fmt.fracBits + 1 + (mb.log2 + 1)) := (Nat.pow_add ..).symm
      _ ≤ 2 ^ k := Nat.pow_le_pow_right (by decide) (by omega)
      _ ≤ n := Nat.le_mul_of_pos_left _ hma
  obtain ⟨hexact, hbetween⟩ := quotient_wholePart (n := n) hmb
  obtain ⟨hjam, hheld⟩ := held_jam (exp := ea - eb - (k : Int) - 1) (t := (n : ℝ) / mb) (sticky := n % mb != 0) hbits
    (fun h => hexact (bne_eq_false_iff_eq.1 h)) (fun h => hbetween (bne_iff_ne.1 h))
  refine (roundFloat_of_held hjam ?_ hheld ?_).2
  · rw [hn]
    positivity
  · have hmbpos : (0 : ℝ) < mb := by exact_mod_cast hmb
    have hinv : (sgn sb)⁻¹ = sgn sb := by cases sb <;> norm_num [sgn]
    rw [hx, hy, hn, sub_add_cancel, zpow_sub₀ two_ne_zero, zpow_sub₀ two_ne_zero, zpow_natCast, sgn_xor, mul_div_mul_comm,
      div_eq_mul_inv (sgn sa), hinv]
    push_cast
    field_simp

/-! ## Roots -/

/-- `isqrt` finds the root, bit by bit. -/
theorem isqrt_spec {n : Nat} (k root : Nat) (hlow : root * root ≤ n) (hhigh : n < (root + 2 ^ k) * (root + 2 ^ k)) :
    isqrt n k root * isqrt n k root ≤ n ∧ n < (isqrt n k root + 1) * (isqrt n k root + 1) := by
  induction k generalizing root with
  | zero => exact ⟨hlow, hhigh⟩
  | succ k ih =>
    rw [isqrt]
    split
    · next h => exact ih _ h (by rwa [Nat.add_assoc, ← Nat.two_mul, ← Nat.pow_succ'])
    · next h => exact ih _ hlow (Nat.lt_of_not_le h)

/-- From the top bit down, it is the whole root. -/
theorem isqrt_eq_sqrt (n : Nat) : isqrt n (n.log2 / 2 + 1) 0 = Nat.sqrt n := by
  have hhigh : n < (0 + 2 ^ (n.log2 / 2 + 1)) * (0 + 2 ^ (n.log2 / 2 + 1)) := by
    rw [Nat.zero_add, ← Nat.pow_add]
    exact Nat.lt_log2_self.trans_le (Nat.pow_le_pow_right (by decide) (by omega))
  obtain ⟨hle, hlt⟩ := isqrt_spec (n.log2 / 2 + 1) 0 (Nat.zero_le _) hhigh
  exact (Nat.eq_sqrt.2 ⟨hle, hlt⟩)

/-- A root and its whole part: equal for a square, and less than one apart otherwise. -/
theorem root_wholePart (n : Nat) :
    (Nat.sqrt n * Nat.sqrt n = n → Real.sqrt n = Nat.sqrt n)
      ∧ (Nat.sqrt n * Nat.sqrt n ≠ n → (Nat.sqrt n : ℝ) < Real.sqrt n ∧ Real.sqrt n < Nat.sqrt n + 1) := by
  refine ⟨fun h => ?_, fun h => ⟨?_, ?_⟩⟩
  · rw [Real.sqrt_eq_iff_mul_self_eq (by positivity) (by positivity)]
    exact_mod_cast h.symm
  · rw [Real.lt_sqrt (by positivity), sq]
    exact_mod_cast lt_of_le_of_ne (Nat.sqrt_le n) h
  · rw [Real.sqrt_lt' (by positivity), sq]
    exact_mod_cast Nat.lt_succ_sqrt n

/-- The root of a positive finite number (44_f_single.md R304). -/
theorem sqrtFinite_spec {m : Nat} {e : Int} (hm : 0 < m) :
    RoundedOnce fmt rm (Real.sqrt (m * 2 ^ e)) (sqrtFinite fmt rm m e) := by
  set odd := (e % 2).toNat with hodd
  set k := fmt.fracBits + 3 with hk
  set n := m * 2 ^ (2 * k + odd) with hn
  have hbits : 2 ^ (fmt.fracBits + 1) ≤ Nat.sqrt n := by
    rw [Nat.le_sqrt, ← Nat.pow_add]
    exact (Nat.pow_le_pow_right (by decide) (by omega)).trans (Nat.le_mul_of_pos_left _ hm)
  obtain ⟨hexact, hbetween⟩ := root_wholePart n
  obtain ⟨hjam, hheld⟩ := held_jam (exp := (e - (odd : Int)) / 2 - (k : Int) - 1) (t := Real.sqrt n)
    (sticky := Nat.sqrt n * Nat.sqrt n != n) hbits (fun h => hexact (bne_eq_false_iff_eq.1 h)) (fun h => hbetween (bne_iff_ne.1 h))
  have hround := (roundFloat_of_held (fmt := fmt) (rm := rm) (neg := false) hjam (by rw [hn]; positivity) hheld (one_mul _).symm).2
  have hvalue : Real.sqrt (m * 2 ^ e) = Real.sqrt n * 2 ^ ((e - (odd : Int)) / 2 - (k : Int) - 1 + 1) := by
    have hsquare : (m * 2 ^ e : ℝ) = n * (2 ^ ((e - (odd : Int)) / 2 - (k : Int) - 1 + 1)) ^ 2 := by
      rw [hn, ← zpow_natCast, ← zpow_mul]
      push_cast
      rw [← zpow_natCast, mul_assoc, ← zpow_add₀ two_ne_zero]
      congr 2
      push_cast
      omega
    rw [hsquare, Real.sqrt_mul (Nat.cast_nonneg n), Real.sqrt_sq (by positivity)]
  rw [hvalue]
  unfold sqrtFinite
  rw [← hodd, ← hk]
  dsimp only
  rw [← hn, isqrt_eq_sqrt]
  exact hround

/-! ## What division and the root give by the classes of their operands -/

theorem fpDiv_of_nan (rm : RoundingMode) (h : IsNan fmt a ∨ IsNan fmt b) :
    fpDiv fmt rm a b = (fmt.nan, if IsSnan fmt a ∨ IsSnan fmt b then flagNV else 0#5) := by
  rw [← nanResult_decide, Bool.decide_or, ← isSignaling_unpack, ← isSignaling_unpack]
  by_cases ha : IsNan fmt a
  · rw [fpDiv, unpack_of_nan ha]
    rfl
  · have hsa : (unpack fmt a).isSignaling = false := by rw [isSignaling_unpack, decide_eq_false fun hs => ha hs.1]
    have hna : (unpack fmt a).isNan = false := by rw [isNan_unpack, decide_eq_false ha]
    rw [fpDiv, unpack_of_nan (h.resolve_left ha)]
    cases hx : unpack fmt a with
    | nan => simp [hx, FpVal.isNan] at hna
    | inf => simp [FpVal.isSignaling]
    | zero => simp [FpVal.isSignaling]
    | finite => simp [FpVal.isSignaling]

theorem fpDiv_invalid (rm : RoundingMode) (h : (IsZero fmt a ∧ IsZero fmt b) ∨ (IsInf fmt a ∧ IsInf fmt b)) :
    fpDiv fmt rm a b = (fmt.nan, flagNV) := by
  rcases h with ⟨ha, hb⟩ | ⟨ha, hb⟩
  · rw [fpDiv, unpack_of_zero ha, unpack_of_zero hb]
    rfl
  · rw [fpDiv, unpack_of_inf ha, unpack_of_inf hb]
    rfl

theorem fpDiv_by_zero (rm : RoundingMode) (ha : IsFinite fmt a) (ha0 : ¬IsZero fmt a) (hb : IsZero fmt b) :
    fpDiv fmt rm a b = ((infResult fmt (productSign fmt a b)).1, flagDZ) := by
  obtain ⟨m, e, hv, -⟩ := unpack_of_finite ha ha0
  rw [fpDiv, hv, unpack_of_zero hb]
  rfl

theorem fpDiv_of_inf (rm : RoundingMode) (ha : IsInf fmt a) (hb : IsFinite fmt b) :
    fpDiv fmt rm a b = infResult fmt (productSign fmt a b) := by
  by_cases hb0 : IsZero fmt b
  · rw [fpDiv, unpack_of_inf ha, unpack_of_zero hb0]
    rfl
  · obtain ⟨m, e, hv, -⟩ := unpack_of_finite hb hb0
    rw [fpDiv, unpack_of_inf ha, hv]
    rfl

theorem fpDiv_by_inf (rm : RoundingMode) (ha : IsFinite fmt a) (hb : IsInf fmt b) :
    fpDiv fmt rm a b = zeroResult fmt (productSign fmt a b) := by
  by_cases ha0 : IsZero fmt a
  · rw [fpDiv, unpack_of_zero ha0, unpack_of_inf hb]
    rfl
  · obtain ⟨m, e, hv, -⟩ := unpack_of_finite ha ha0
    rw [fpDiv, hv, unpack_of_inf hb]
    rfl

theorem fpDiv_of_zero (rm : RoundingMode) (ha : IsZero fmt a) (hb : IsFinite fmt b) (hb0 : ¬IsZero fmt b) :
    fpDiv fmt rm a b = zeroResult fmt (productSign fmt a b) := by
  obtain ⟨m, e, hv, -⟩ := unpack_of_finite hb hb0
  rw [fpDiv, unpack_of_zero ha, hv]
  rfl

theorem fpDiv_of_finite (rm : RoundingMode) (ha : IsFinite fmt a) (ha0 : ¬IsZero fmt a) (hb : IsFinite fmt b)
    (hb0 : ¬IsZero fmt b) : RoundedOnce fmt rm (realOf fmt a / realOf fmt b) (fpDiv fmt rm a b) := by
  obtain ⟨m, e, hv, hm, hreal⟩ := unpack_of_finite ha ha0
  obtain ⟨m', e', hv', hm', hreal'⟩ := unpack_of_finite hb hb0
  rw [fpDiv, hv, hv']
  exact divFinite_spec hm hm' (by rw [realOf_eq, hreal]) (by rw [realOf_eq, hreal'])

theorem fpSqrt_of_nan (rm : RoundingMode) (ha : IsNan fmt a) :
    fpSqrt fmt rm a = (fmt.nan, if IsSnan fmt a then flagNV else 0#5) := by
  rw [← nanResult_decide, fpSqrt, unpack_of_nan ha]

theorem fpSqrt_of_negative (rm : RoundingMode) (hneg : negative fmt a = true) (h0 : ¬IsZero fmt a) (hnan : ¬IsNan fmt a) :
    fpSqrt fmt rm a = (fmt.nan, flagNV) := by
  rcases nan_or_inf_or_zero_or_finite fmt a with h | h | h | ⟨h, -⟩
  · exact absurd h hnan
  · rw [fpSqrt, unpack_of_inf h, hneg]
    rfl
  · exact absurd h h0
  · obtain ⟨m, e, hv, -⟩ := unpack_of_finite h h0
    rw [fpSqrt, hv, hneg]
    rfl

theorem fpSqrt_of_pos (rm : RoundingMode) (ha : IsFinite fmt a) (hpos : 0 < realOf fmt a) :
    RoundedOnce fmt rm (Real.sqrt (realOf fmt a)) (fpSqrt fmt rm a) := by
  have ha0 : ¬IsZero fmt a := fun h0 => hpos.ne' (realOf_eq_zero_iff.2 h0)
  obtain ⟨m, e, hv, hm, hreal⟩ := unpack_of_finite ha ha0
  have hnonneg : negative fmt a = false := by
    by_contra hneg
    rw [Bool.not_eq_false] at hneg
    rw [realOf_eq, hneg] at hpos
    have := magReal_nonneg fmt (magnitude fmt a)
    simp only [sgn, if_true] at hpos
    linarith
  rw [fpSqrt, hv, realOf_eq, hnonneg, hreal]
  simp only [sgn, Bool.false_eq_true, if_false, one_mul]
  exact sqrtFinite_spec hm

end

/-- Settles O50: quotients and roots by the classes of their operands. -/
theorem quotientsAndRootsAreRoundedOnce : Obligations.QuotientsAndRootsAreRoundedOnce := by
  intro f m a b p
  refine ⟨fun ha hb ha0 hb0 => fpDiv_of_finite m ha ha0 hb hb0, fun ha hb hb0 => ?_, fun ha hb => ?_, fun ha hb => ?_,
    fun ha hpos => fpSqrt_of_pos m ha hpos, fun ha => ?_, fun ha hneg => ?_⟩
  · rw [fpDiv_of_zero m ha hb hb0]
    exact givesZero_zeroResult f _
  · rw [fpDiv_by_inf m ha hb]
    exact givesZero_zeroResult f _
  · rw [fpDiv_of_inf m ha hb]
    exact givesInf_infResult f _
  · rw [fpSqrt, unpack_of_zero ha]
    exact givesZero_zeroResult f _
  · rw [fpSqrt, unpack_of_inf ha, hneg]
    exact givesInf_infResult f _

/-- Settles O48: each invalid operation is read off the classes of its operands. -/
theorem invalidOperationsGiveTheCanonicalNan : Obligations.InvalidOperationsGiveTheCanonicalNan := by
  intro f m a b c
  refine ⟨fun op hop => ?_, fun ha hb hsign => ?_, fun h => ?_, fpDiv_invalid m, fun h => fpFma_of_nan_factor m h c,
    fun ha hb h h' hc => ?_, fun h hc hsign => ?_, fpSqrt_of_negative m, fpSqrt_of_nan m, fun ha ha0 hb => ?_⟩
  · have hnan : IsNan f a ∨ IsNan f b → op f m a b = (f.nan, if IsSnan f a ∨ IsSnan f b then flagNV else 0#5) := by
      fin_cases hop
      · exact fpAdd_of_nan m
      · exact fpMul_of_nan m
      · exact fpDiv_of_nan m
    refine ⟨fun h => by rw [hnan h], fun h => ?_, fun h hsa hsb => ?_⟩
    · rw [hnan (h.imp And.left And.left), if_pos h]
    · rw [hnan h, if_neg (not_or.2 ⟨hsa, hsb⟩)]
  · rw [fpAdd_of_numbers m ha.not_nan hb.not_nan, unpack_of_inf ha, unpack_of_inf hb, addVal, if_neg hsign]
    rfl
  · have hnan : ¬IsNan f a ∧ ¬IsNan f b :=
      h.elim (fun ⟨ha, hb⟩ => ⟨ha.not_nan, hb.finite.not_nan⟩) (fun ⟨ha, hb⟩ => ⟨ha.finite.not_nan, hb.not_nan⟩)
    have hnone := mulVal_of_invalid h
    exact ⟨fpMul_of_none m hnan.1 hnan.2 hnone, fpFma_of_none m hnan.1 hnan.2 hnone c⟩
  · obtain ⟨r, hr⟩ := mulVal_isSome ha hb h h'
    exact fpFma_of_nan_addend m ha hb hr hc
  · rw [fpFma_of_some m h.not_nan.1 h.not_nan.2 (mulVal_of_infinite h) hc.not_nan, unpack_of_inf hc, addVal, if_neg hsign]
    rfl
  · obtain ⟨-, hinf, hneg, -⟩ := givesInf_infResult f (productSign f a b)
    rw [fpDiv_by_zero m ha ha0 hb]
    exact ⟨hinf, hneg, rfl⟩

/-- Settles O51: an integer, and what `unpack` reads of a pattern, are numbers under a sign. -/
theorem conversionsToFloatAreRoundedOnce : Obligations.ConversionsToFloatAreRoundedOnce := by
  intro f g m a i
  refine ⟨fun hi => ?_, rfl, fun ha ha0 => ?_, fun ha => ?_, fun ha => ?_, fun ha => ?_⟩
  · rw [intToFp, if_neg hi]
    refine (roundFloat_of_stands (Int.natAbs_pos.2 hi) ?_).2
    rw [zpow_zero, mul_one, ← intCast_eq_sgn]
  · exact (roundVal_spec (unpack_stands ha)).1 fun h => ha0 (realOf_eq_zero_iff.1 h)
  · rw [fpConvert, unpack_of_nan ha, roundVal, nanResult_decide]
  · rw [fpConvert, unpack_of_inf ha]
    exact givesInf_infResult g _
  · exact (roundVal_spec (unpack_stands ha.finite)).2 (realOf_eq_zero_iff.2 ha)

end Sys2Proof.Machine
end

section
/-! Proofs about conversions to integers and about the order of floating-point numbers (44_f_single.md R306, R307, R309). -/

namespace Sys2Proof.Machine

/-! ## Rounding to an integer -/

section
variable {fmt : FloatFormat} {rm : RoundingMode} {sign : Bool} {x : ℝ} {q : Nat}

/-- The place of a magnitude among the naturals, under the sign, is the rounding to an integer: the whole number below the magnitude
fixes the floors and the ceilings that `roundToInt` is made of (44_f_single.md R302). -/
theorem roundToInt_of_roundsOn (h : RoundsOn (fun n => (n : ℝ)) rm sign |x| q) (hsign : sign = decide (x < 0)) :
    roundToInt rm x = signedMant sign q := by
  obtain ⟨n, hle, hlt, hq⟩ := h
  push_cast at hlt
  have hx := sgn_mul_abs hsign
  generalize |x| = y at *
  have hy : ⌊y⌋ = n := Int.floor_eq_iff.2 ⟨by exact_mod_cast hle, by exact_mod_cast hlt⟩
  have hceil : ⌈y⌉ = if (n : ℝ) < y then (n : Int) + 1 else n := by
    split
    · next hn => exact Int.ceil_eq_iff.2 ⟨by push_cast; linarith, by push_cast; linarith⟩
    · next hn => exact Int.ceil_eq_iff.2 ⟨by push_cast; linarith, by push_cast; linarith⟩
  have hhalf : ⌊y + 1 / 2⌋ = if (n : ℝ) + (n + 1) ≤ 2 * y then (n : Int) + 1 else n := by
    split
    · next hn => exact Int.floor_eq_iff.2 ⟨by push_cast; linarith, by push_cast; linarith⟩
    · next hn => exact Int.floor_eq_iff.2 ⟨by push_cast; linarith, by push_cast; linarith⟩
  cases sign
  · have hx0 : ¬x < 0 := of_decide_eq_false hsign.symm
    obtain rfl : y = x := by simpa [sgn] using hx
    cases rm with
    | rne | rtz | rdn | rup | rmm =>
      simp only [roundToInt, hx0, if_false, hy, hceil, hhalf, UpFrom, signedMant] at hq ⊢
      push_cast at hq ⊢
      grind
  · have hx0 : x < 0 := of_decide_eq_true hsign.symm
    obtain rfl : -y = x := by simpa [sgn] using hx
    have hmid : ⌈-y - 1 / 2⌉ = -⌊y + 1 / 2⌋ := by rw [← Int.ceil_neg]; ring_nf
    cases rm with
    | rne | rtz | rdn | rup | rmm =>
      simp only [roundToInt, hx0, if_true, Int.floor_neg, Int.ceil_neg, hmid, hy, hceil, hhalf, UpFrom, signedMant] at hq ⊢
      push_cast at hq ⊢
      grind

/-- The conversion of a finite number: its rounding to an integer, if the type holds that (44_f_single.md R307). -/
theorem fpToInt_of_finite {a : Word} (ha : IsFinite fmt a) (ha0 : ¬IsZero fmt a) (n : Nat) (isSigned : Bool) :
    ∃ inexact : Bool, (inexact = false ↔ (roundToInt rm (realOf fmt a) : ℝ) = realOf fmt a)
      ∧ fpToInt fmt rm a n isSigned
          = if intMax n isSigned < roundToInt rm (realOf fmt a) then (intMax n isSigned, flagNV)
            else if roundToInt rm (realOf fmt a) < intMin n isSigned then (intMin n isSigned, flagNV)
            else (roundToInt rm (realOf fmt a), flagIf inexact flagNX) := by
  obtain ⟨m, e, hv, hm, hreal⟩ := unpack_of_finite ha ha0
  have habs : |realOf fmt a| = m * 2 ^ e := by rw [abs_realOf, hreal]
  have hsign : negative fmt a = decide (realOf fmt a < 0) := by
    have hpos : (0 : ℝ) < m * 2 ^ e := by positivity
    rw [realOf_eq, hreal]
    cases negative fmt a
    · simpa [sgn] using hpos.le
    · simpa [sgn] using hpos
  obtain ⟨hplace, hexact⟩ := roundToGrid_spec (rm := rm) (sign := negative fmt a) (grid := 0) (.inl habs)
  simp only [zpow_zero, mul_one] at hplace hexact
  have hround := roundToInt_of_roundsOn hplace hsign
  refine ⟨(roundToGrid rm (negative fmt a) m e 0).2, ?_, ?_⟩
  · rw [hexact, hround, signedMant_cast]
    conv_rhs => rhs; rw [← sgn_mul_abs hsign]
    exact (mul_right_inj' (by cases negative fmt a <;> simp [sgn])).symm
  · rw [fpToInt, hv, hround]

theorem roundToInt_zero (rm : RoundingMode) : roundToInt rm 0 = 0 := by
  cases rm <;> norm_num [roundToInt]

end

/-- Settles O52: a number is converted by its rounding, whose place among the integers is that of `roundToGrid` with the grid 1. -/
theorem conversionsToIntegerSaturate : Obligations.ConversionsToIntegerSaturate := by
  intro f m a n hn isSigned least largest r
  have hmin : intMin n isSigned = least := rfl
  have hmax : intMax n isSigned = largest := rfl
  have hrange : least ≤ 0 ∧ 0 ≤ largest := by
    rw [← hmin, ← hmax]
    fin_cases hn <;> cases isSigned <;> decide
  refine ⟨fun ha => ?_, fun ha => ?_, ?_⟩
  · rw [fpToInt, unpack_of_nan ha]
    rfl
  · rw [fpToInt, unpack_of_inf ha]
    cases negative f a <;> rfl
  by_cases ha0 : IsZero f a
  · have hzero : realOf f a = 0 := realOf_eq_zero_iff.2 ha0
    have hr : r = 0 := by rw [← roundToInt_zero m, ← hzero]
    have hconvert : fpToInt f m a n isSigned = (0, 0#5) := by rw [fpToInt, unpack_of_zero ha0]
    rw [hr, hconvert, hzero]
    exact ⟨fun _ h => by omega, fun _ h => by omega, fun _ _ _ _ => rfl, fun _ _ _ hne => absurd Int.cast_zero hne⟩
  · have hfinite := fun ha : IsFinite f a => fpToInt_of_finite (rm := m) ha ha0 n isSigned
    rw [hmin, hmax] at hfinite
    refine ⟨fun ha habove => ?_, fun ha hbelow => ?_, fun ha hlow hhigh heq => ?_, fun ha hlow hhigh hne => ?_⟩ <;>
      obtain ⟨inexact, hexact, hconvert⟩ := hfinite ha
    · rw [hconvert, if_pos habove]
    · rw [hconvert, if_neg (by omega), if_pos hbelow]
    · rw [hconvert, if_neg hhigh.not_gt, if_neg hlow.not_gt, hexact.2 heq]
      rfl
    · rw [hconvert, if_neg hhigh.not_gt, if_neg hlow.not_gt, Bool.eq_true_of_not_eq_false fun h => hne (hexact.1 h)]
      rfl

/-! ## The order -/

/-- The number of a magnitude under a sign. -/
noncomputable def signedReal (fmt : FloatFormat) (k : Int) : ℝ := if k < 0 then -magReal fmt k.natAbs else magReal fmt k.natAbs

theorem signedReal_strictMono (fmt : FloatFormat) : StrictMono (signedReal fmt) := by
  intro j k hjk
  have hmono := magReal_strictMono fmt
  unfold signedReal
  split
  · next hj =>
    have hjpos : 0 < magReal fmt j.natAbs := by
      rw [← magReal_zero fmt]
      exact hmono (Int.natAbs_pos.2 hj.ne)
    split
    · exact neg_lt_neg (hmono (by omega))
    · linarith [magReal_nonneg fmt k.natAbs]
  · next hj =>
    rw [if_neg (by omega)]
    exact hmono (by omega)

/-- The place of a key among the extended reals: its number, and an infinity from the magnitude of the infinities on. -/
noncomputable def keyReal (fmt : FloatFormat) (k : Int) : EReal :=
  if (fmt.infBits : Int) ≤ k then ⊤ else if k ≤ -(fmt.infBits : Int) then ⊥ else (signedReal fmt k : EReal)

section
variable {fmt : FloatFormat} {a b : Word}

theorem orderKey_eq (fmt : FloatFormat) (v : Word) :
    orderKey fmt v = if negative fmt v then -(magnitude fmt v : Int) else magnitude fmt v := by
  rw [orderKey, signBit_eq_negative]
  rfl

/-- A pattern that is no NaN has a magnitude up to that of the infinities. -/
theorem magnitude_le_infBits (h : ¬IsNan fmt a) : magnitude fmt a ≤ fmt.infBits := by
  rcases nan_or_inf_or_zero_or_finite fmt a with hn | hi | h0 | ⟨hf, -⟩
  · exact absurd hn h
  · exact (isInf_iff.1 hi).le
  · exact (isFinite_iff.1 h0.finite).le
  · exact (isFinite_iff.1 hf).le

/-- The key of a pattern tells its place (44_f_single.md R306). -/
theorem extOf_eq_keyReal (h : ¬IsNan fmt a) : extOf fmt a = keyReal fmt (orderKey fmt a) := by
  have hinf : 0 < fmt.infBits := by cases fmt <;> decide
  rw [extOf, keyReal, signedReal, orderKey_eq]
  by_cases hfin : IsFinite fmt a
  · have hlt := isFinite_iff.1 hfin
    rw [if_neg hfin, realOf_eq]
    cases negative fmt a
    · rw [if_neg (by simp; omega), if_neg (by simp; omega), if_neg (by simp)]
      simp [sgn]
    · rw [if_neg (by simp; omega), if_neg (by simp; omega)]
      by_cases h0 : magnitude fmt a = 0
      · simp [h0, magReal_zero]
      · rw [if_pos (by simp; omega)]
        simp [sgn]
  · have hmag : magnitude fmt a = fmt.infBits :=
      isInf_iff.1 ⟨not_not.1 hfin, by_contra fun hne => h ⟨not_not.1 hfin, hne⟩⟩
    rw [if_pos (not_not.1 hfin), hmag]
    cases negative fmt a
    · simp
    · rw [if_pos rfl, if_pos rfl, if_neg (by omega), if_pos le_rfl]

/-- Among the keys of the patterns that are no NaNs, larger ones have larger places. -/
theorem keyReal_strictMonoOn (fmt : FloatFormat) :
    StrictMonoOn (keyReal fmt) (Set.Icc (-(fmt.infBits : Int)) fmt.infBits) := by
  intro j hj k hk hjk
  obtain ⟨hjlow, -⟩ := hj
  obtain ⟨-, hkhigh⟩ := hk
  unfold keyReal
  rw [if_neg (by omega : ¬(fmt.infBits : Int) ≤ j), if_neg (by omega : ¬k ≤ -(fmt.infBits : Int))]
  split_ifs
  · exact bot_lt_top
  · exact EReal.bot_lt_coe _
  · exact EReal.coe_lt_top _
  · exact EReal.coe_lt_coe (signedReal_strictMono fmt hjk)

theorem orderKey_mem (h : ¬IsNan fmt a) : orderKey fmt a ∈ Set.Icc (-(fmt.infBits : Int)) fmt.infBits := by
  have hle := magnitude_le_infBits h
  rw [orderKey_eq, Set.mem_Icc]
  split <;> omega

/-- The comparisons of keys are those of places. -/
theorem orderKey_compare (ha : ¬IsNan fmt a) (hb : ¬IsNan fmt b) :
    (orderKey fmt a = orderKey fmt b ↔ extOf fmt a = extOf fmt b)
      ∧ (orderKey fmt a < orderKey fmt b ↔ extOf fmt a < extOf fmt b)
      ∧ (orderKey fmt a ≤ orderKey fmt b ↔ extOf fmt a ≤ extOf fmt b) := by
  have hmono := keyReal_strictMonoOn fmt
  have hka := orderKey_mem ha
  have hkb := orderKey_mem hb
  rw [extOf_eq_keyReal ha, extOf_eq_keyReal hb]
  exact ⟨(hmono.injOn.eq_iff hka hkb).symm, (hmono.lt_iff_lt hka hkb).symm, (hmono.le_iff_le hka hkb).symm⟩

/-- No comparison holds of a NaN (44_f_single.md R309). -/
theorem fpCompare_of_nan (quiet : Bool) (rel : FpRelation) (h : IsNan fmt a ∨ IsNan fmt b) :
    (fpCompare fmt quiet rel a b).1 = false := by
  simp only [fpCompare, isNan_or_eq_true h, Bool.not_true, Bool.false_and]

/-- The comparisons of numbers are those of their places (44_f_single.md R309). -/
theorem fpCompare_of_numbers (quiet : Bool) (ha : ¬IsNan fmt a) (hb : ¬IsNan fmt b) :
    ((fpCompare fmt quiet .eq a b).1 = true ↔ extOf fmt a = extOf fmt b)
      ∧ ((fpCompare fmt quiet .lt a b).1 = true ↔ extOf fmt a < extOf fmt b)
      ∧ ((fpCompare fmt quiet .le a b).1 = true ↔ extOf fmt a ≤ extOf fmt b) := by
  simp only [fpCompare, isNan_or_eq_false ha hb, Bool.not_false, Bool.true_and, decide_eq_true_eq]
  exact orderKey_compare ha hb

/-- The flag of a comparison (44_f_single.md R309). -/
theorem fpCompare_flags (fmt : FloatFormat) (quiet : Bool) (rel : FpRelation) (a b : Word) :
    (fpCompare fmt quiet rel a b).2
      = if IsSnan fmt a ∨ IsSnan fmt b ∨ (rel ≠ .eq ∧ quiet = true ∧ (IsNan fmt a ∨ IsNan fmt b)) then flagNV else 0#5 := by
  simp only [fpCompare, isNan_unpack, isSignaling_unpack, flagIf]
  refine if_congr ?_ rfl rfl
  simp only [Bool.or_eq_true, Bool.and_eq_true, decide_eq_true_eq, bne_iff_ne]
  tauto

/-- The flag of min and max, and the operand they give (44_f_single.md R306). -/
theorem minMax_eq (fmt : FloatFormat) (pickFirst : Bool) (a b : Word) :
    minMax fmt pickFirst a b
      = (if IsNan fmt a then (if IsNan fmt b then fmt.nan else b) else if IsNan fmt b then a else if pickFirst then a else b,
        if IsSnan fmt a ∨ IsSnan fmt b then flagNV else 0#5) := by
  unfold minMax
  simp only [isNan_unpack, isSignaling_unpack, flagIf, ← Bool.decide_or, decide_eq_true_eq]
  by_cases ha : IsNan fmt a
  · by_cases hb : IsNan fmt b
    · simp only [if_pos ha, if_pos hb, decide_eq_true ha, decide_eq_true hb, Bool.and_self, if_true]
    · simp only [if_pos ha, if_neg hb, decide_eq_false hb, Bool.and_false, Bool.false_eq_true, if_false]
  · simp only [if_neg ha, decide_eq_false ha, Bool.false_and, Bool.false_eq_true, if_false]

/-- A number that is smaller, or -0 beside +0, is before the other and not after it (44_f_single.md R306). -/
theorem orderedBefore_of_lt (ha : ¬IsNan fmt a) (hb : ¬IsNan fmt b)
    (h : extOf fmt a < extOf fmt b ∨ (IsZero fmt a ∧ IsZero fmt b ∧ negative fmt a = true ∧ negative fmt b = false)) :
    orderedBefore fmt a b = true ∧ orderedBefore fmt b a = false := by
  simp only [orderedBefore, signBit_eq_negative]
  rcases h with hlt | ⟨ha0, hb0, hna, hnb⟩
  · have hkey := (orderKey_compare ha hb).2.1.2 hlt
    simp [hkey, hkey.not_gt, hkey.ne']
  · have hkey : orderKey fmt a = orderKey fmt b := by
      rw [orderKey_eq, orderKey_eq, isZero_iff.1 ha0, isZero_iff.1 hb0]
      simp
    simp [hkey, hna, hnb]

end

/-- Settles O53: the keys are ordered as the numbers are, and a NaN has no part in it. -/
theorem orderOfFloatingPointNumbers : Obligations.OrderOfFloatingPointNumbers := by
  intro f quiet a b _ _
  refine ⟨fun h rel => fpCompare_of_nan quiet rel h, fun ha hb => ?_, fun rel => fpCompare_flags f quiet rel a b,
    fun ha hb => ?_, fun ha hb => ?_, fun ha hb => ?_, fun ha hb h => ?_, fun ha => ?_, ?_, ?_⟩
  · obtain ⟨heq, hlt, hle⟩ := fpCompare_of_numbers quiet ha hb
    refine ⟨heq, hlt, hle, fun rel => ?_⟩
    rw [fpCompare_flags, if_neg]
    rintro (hs | hs | ⟨-, -, hs | hs⟩)
    · exact ha hs.1
    · exact hb hs.1
    · exact ha hs
    · exact hb hs
  · simp only [fpMin, fpMax, minMax_eq, if_pos ha, if_pos hb, and_self]
  · simp only [fpMin, fpMax, minMax_eq, if_pos ha, if_neg hb, and_self]
  · simp only [fpMin, fpMax, minMax_eq, if_neg ha, if_pos hb, and_self]
  · obtain ⟨hbefore, hafter⟩ := orderedBefore_of_lt ha hb h
    simp only [fpMin, fpMax, minMax_eq, if_neg ha, if_neg hb, hbefore, hafter, if_true, Bool.false_eq_true, if_false, and_self]
  · simp only [fpMin, fpMax, minMax_eq, if_neg ha, ite_self, and_self]
  · rw [fpMin, minMax_eq]
  · rw [fpMin, fpMax, minMax_eq, minMax_eq]

end Sys2Proof.Machine
end

section
/-! Proofs about the compressed arithmetic (46_c_compressed.md R395 to R432, 49_zc_code_size.md R561 to R567): each instruction is its
expansion, so that what the operations compute is that of the base, M and word instructions, on shorter immediates. -/

namespace Sys2Proof.Machine

/-! ## Extensions -/

/-- Extending an immediate to the field of the expansion before extending it to XLEN changes nothing (46_c_compressed.md R390). -/
theorem sext_signExtend (xlen : Xlen) {m n : Nat} (hmn : m ≤ n) (imm : BitVec m) : sext xlen (imm.signExtend n) = sext xlen imm := by
  rw [sext, sext, BitVec.signExtend, BitVec.toInt_signExtend_of_le hmn, ← BitVec.signExtend]

/-- An immediate scaled by 2^k stands for 2^k times its field. -/
theorem toInt_append_zeros {n : Nat} (imm : BitVec n) (k : Nat) : (imm ++ 0#k).toInt = imm.toInt * 2 ^ k := by
  rw [BitVec.toInt_append]
  split
  case isTrue hn =>
    obtain rfl : n = 0 := eq_of_beq hn
    simp [BitVec.eq_nil imm]
  case isFalse => simp [mul_comm]

/-- The XLEN bits of a zero-extended value stand for its unsigned reading (00_scope.md R9). -/
theorem cut_zext (s : State) {n : Nat} (v : BitVec n) : cut s.cfg.xlen (zext v) = wrap s v.toNat := by
  rw [wrap_natCast, BitVec.ofNat_toNat, zext]

/-- A zero-extended operand is, in XLEN bits, the value of its unsigned reading. -/
theorem setWidth_zext_eq_ofInt (xlen : Xlen) {n : Nat} (v : BitVec n) :
    (zext v).setWidth xlen.bits = BitVec.ofInt xlen.bits v.toNat :=
  eq_ofInt_natCast (by rw [zext, BitVec.setWidth_setWidth_of_le _ (xlen_bits_le _), BitVec.toNat_setWidth])

/-- The word of an integer has XLEN bits. -/
theorem cut_wrap (s : State) (z : Int) : cut s.cfg.xlen (wrap s z) = wrap s z := by
  rw [wrap_eq_zext]
  exact (cut_zext_eq_wrap rfl).trans (wrap_eq_zext s z)

/-- The low bits of a register as a signed number. -/
theorem toInt_setWidth_getX (s : State) (r : RegIdx) (n : Nat) : ((s.getX r).setWidth n).toInt = signed n (uval s r) :=
  BitVec.toInt_setWidth ..

/-- The low word of a register, as the 32-bit value of the number it reads. -/
theorem setWidth32_getX (s : State) (r : RegIdx) : (s.getX r).setWidth 32 = BitVec.ofInt 32 (uval s r) :=
  eq_ofInt_natCast (toNat_setWidth32_getX s r)

/-- The complement of a value is the number from all ones down. -/
theorem not_eq_ofInt {w : Nat} (a : BitVec w) : ~~~a = BitVec.ofInt w (2 ^ w - 1 - (a.toNat : Int)) := by
  have hcast : (2 ^ w - 1 - (a.toNat : Int)) = ((2 ^ w - 1 - a.toNat : Nat) : Int) := by
    have ha := a.isLt
    push_cast [Nat.sub_sub, show 1 + a.toNat ≤ 2 ^ w by omega]
    ring
  rw [hcast]
  exact eq_ofInt_natCast (by rw [← BitVec.toNat_not, Nat.mod_eq_of_lt (~~~a).isLt])

/-! ## The forms of the instructions -/

section
variable {s : State} {n : Nat} {rd rs1 rs2 : RegIdx}

/-- An instruction that writes a sign-extended value writes the word of its signed reading. -/
theorem writeX_sext {m : Nat} (v : BitVec m) : WritesX s (.next (s.writeX n rd (sext s.xlen v))) n rd (wrap s v.toInt) :=
  writesX_writeX (by rw [State.xlen, sext_eq_wrap, cut_wrap])

/-- An instruction that writes the sign-extended low bits of a register. -/
theorem signedLow_writesX (m : Nat) :
    WritesX s (.next (s.writeX n rd (sext s.xlen ((s.getX rs1).setWidth m)))) n rd (wrap s (signed m (uval s rs1))) := by
  rw [← toInt_setWidth_getX]
  exact writeX_sext _

/-- An instruction that writes the zero-extended low bits of a register. -/
theorem unsignedLow_writesX (m : Nat) :
    WritesX s (.next (s.writeX n rd (zext ((s.getX rs1).setWidth m)))) n rd (wrap s (uval s rs1 % 2 ^ m : Nat)) :=
  writesX_writeX (by rw [cut_zext, BitVec.toNat_setWidth, uval])

/-- An operation on a register and an immediate shorter than that of the expansion. -/
theorem alu2_shortImmediate {op : ∀ w, BitVec w → BitVec w → BitVec w} {spec : Nat → Nat → Int → Int} (h : ComputesImm op spec)
    {m : Nat} (hm : m ≤ 12) (imm : BitVec m) :
    WritesX s (s.alu2 n rd op (s.getX rs1) (sext s.xlen imm)) n rd (wrap s (spec s.cfg.xlen.bits (uval s rs1) imm.toInt)) := by
  rw [← sext_signExtend _ hm, ← BitVec.toInt_signExtend_of_le hm]
  exact alu2_immediate h _

/-- An operation of one register, from what it computes on the XLEN bits. -/
theorem alu1_writesX {op : ∀ w, BitVec w → BitVec w} {a : Word} {z : Int}
    (h : op s.cfg.xlen.bits (a.setWidth _) = BitVec.ofInt _ z) :
    WritesX s (s.alu1 n rd op a) n rd (wrap s z) :=
  alu2_writesX (op := fun w a _ => op w a) (b := a) h

/-- A sum of words is that of the numbers the registers read. -/
theorem addWord_registers :
    WritesX s (s.aluWord n rd (addOp 32) (s.getX rs1) (s.getX rs2)) n rd
      (wrap s (Int.bmod ((uval s rs1 : Int) + uval s rs2) (2 ^ 32))) :=
  aluWord_writesX (by rw [setWidth32_getX, setWidth32_getX, addOp, BitVec.ofInt_add])

/-- A difference of words is that of the numbers the registers read. -/
theorem subWord_registers :
    WritesX s (s.aluWord n rd (subOp 32) (s.getX rs1) (s.getX rs2)) n rd
      (wrap s (Int.bmod ((uval s rs1 : Int) - uval s rs2) (2 ^ 32))) :=
  aluWord_writesX (by
    rw [setWidth32_getX, setWidth32_getX, subOp, BitVec.sub_eq_add_neg, ← BitVec.ofInt_neg, ← BitVec.ofInt_add, sub_eq_add_neg])

end

/-! ## The instructions with an operand of their own shape -/

/-- c.addiw adds its immediate (46_c_compressed.md R407). -/
theorem cAddiw_writesX (rd : RegIdx) (imm : BitVec 6) (s : State) :
    WritesX s (exec (.cAddiw rd imm) s) 2 rd (wrap s (Int.bmod (uval s rd + imm.toInt) (2 ^ 32))) := by
  refine aluWord_writesX ?_
  rw [← sext_signExtend _ (show 6 ≤ 12 by decide), setWidth32_sext, setWidth32_getX, addOp, BitVec.ofInt_add, BitVec.signExtend,
    BitVec.toInt_signExtend_of_le (by decide)]

/-- c.lui writes its immediate times 2^12 (46_c_compressed.md R410). -/
theorem cLui_writesX (rd : RegIdx) (imm : BitVec 6) (s : State) :
    WritesX s (exec (.cLui rd imm) s) 2 rd (wrap s (imm.toInt * 4096)) := by
  have himm : (imm ++ 0#12).toInt = imm.toInt * 4096 := toInt_append_zeros imm 12
  rw [← himm]
  exact writeX_sext _

/-- c.mv copies a register, which has XLEN bits (46_c_compressed.md R429). -/
theorem cMv_writesX (rd rs2 : RegIdx) (s : State) : WritesX s (exec (.cMv rd rs2) s) 2 rd (s.getX rs2) :=
  writesX_writeX (cut_of_lt (getX_lt s rs2))

/-- c.addi16sp adds 16 times its immediate to the stack pointer (46_c_compressed.md R409). -/
theorem cAddi16sp_writesX (nzimm : BitVec 6) (s : State) :
    WritesX s (exec (.cAddi16sp nzimm) s) 2 2#5 (wrap s (uval s 2#5 + nzimm.toInt * 16)) := by
  have himm : (nzimm ++ 0#4).toInt = nzimm.toInt * 16 := toInt_append_zeros nzimm 4
  rw [← himm]
  exact alu2_shortImmediate addOp_computesImm (by decide) _

/-- c.addi4spn writes the stack pointer plus 4 times its immediate (46_c_compressed.md R395). -/
theorem cAddi4spn_writesX (rd : CRegIdx) (nzuimm : BitVec 8) (s : State) :
    WritesX s (exec (.cAddi4spn rd nzuimm) s) 2 (creg rd) (wrap s (uval s 2#5 + nzuimm.toNat * 4)) := by
  refine alu2_writesX ?_
  rw [setWidth_zext_eq_ofInt, eq_ofInt_toNat ((s.getX sp).setWidth _), uval_eq, addOp, ← BitVec.ofInt_add, BitVec.toNat_append]
  simp [Nat.shiftLeft_eq, sp]

/-- c.not writes the complement, the number from all ones down (49_zc_code_size.md R566). -/
theorem cNot_writesX (rd : CRegIdx) (s : State) :
    WritesX s (exec (.cNot rd) s) 2 (creg rd) (wrap s (2 ^ s.cfg.xlen.bits - 1 - (uval s (creg rd) : Int))) := by
  refine alu1_writesX ?_
  rw [not_eq_ofInt, uval_eq]

/-! ## The obligation -/

/-- Settles O54: each instruction is the form of its expansion, so that its result is what the operation of the expansion computes. -/
theorem compressedArithmeticCompletes : Obligations.CompressedArithmeticCompletes := by
  refine ⟨fun row hrow rd imm s => ?_, fun row hrow rd rs2 s => ?_, fun rd shamt imm s => ⟨?_, fun hk => ⟨?_, ?_⟩⟩,
    fun rd rs2 crd shamt nzimm nzuimm s =>
      ⟨fun hk => ?_, cMv_writesX rd rs2 s, ?_, cAddi16sp_writesX nzimm s, cAddi4spn_writesX crd nzuimm s⟩,
    fun row hrow rd s => ?_⟩
  · fin_cases hrow
    · exact alu2_shortImmediate addOp_computesImm (by decide) imm
    · exact cAddiw_writesX rd imm s
    · exact writeX_sext imm
    · exact cLui_writesX rd imm s
  · fin_cases hrow <;> dsimp only
    · exact alu2_registers subOp_computes
    · exact alu2_registers xorOp_computes
    · exact alu2_registers orOp_computes
    · exact alu2_registers andOp_computes
    · exact subWord_registers
    · exact addWord_registers
    · exact alu2_registers mulOp_computes
  · exact alu2_shortImmediate andOp_computes.imm (by decide) imm
  · exact alu2_shamt srlOp_computes hk (by simp only [Nat.mod_eq_of_lt hk])
  · exact alu2_shamt sraOp_computes hk (by simp only [Nat.mod_eq_of_lt hk])
  · exact alu2_shamt sllOp_computes hk (by simp only [Nat.mod_eq_of_lt hk])
  · exact alu2_registers addOp_computes
  · fin_cases hrow <;> dsimp only
    · exact unsignedLow_writesX 8
    · exact signedLow_writesX 8
    · exact unsignedLow_writesX 16
    · exact signedLow_writesX 16
    · exact unsignedLow_writesX 32
    · exact cNot_writesX rd s

end Sys2Proof.Machine
end

section
/-! Proofs about the bit manipulation instructions (47_b_bit_manipulation.md R441 to R483). First, numbers given by their bits; then
what the operations compute, bit by bit where the statement gives bits; last, the obligations. -/

namespace Sys2Proof.Machine

/-! ## Numbers given by their bits -/

theorem ofBits_lt (p : Nat → Bool) (n : Nat) : ofBits p n < 2 ^ n := by
  induction n with
  | zero => simp [ofBits]
  | succ n ih =>
    rw [ofBits, pow_succ]
    split <;> omega

theorem testBit_ofBits (p : Nat → Bool) {n k : Nat} (hk : k < n) : (ofBits p n).testBit k = p k := by
  induction n with
  | zero => omega
  | succ n ih =>
    have hsum : ofBits p (n + 1) = 2 ^ n * (p n).toNat + ofBits p n := by
      rw [ofBits]
      cases p n <;> simp [add_comm]
    rw [hsum, Nat.testBit_two_pow_mul_add _ (ofBits_lt p n)]
    obtain hlt | rfl := Nat.lt_succ_iff_lt_or_eq.mp hk
    · rw [if_pos hlt, ih hlt]
    · cases p k <;> simp

theorem ofBits_congr {p q : Nat → Bool} {n : Nat} (h : ∀ k < n, p k = q k) : ofBits p n = ofBits q n := by
  induction n with
  | zero => rfl
  | succ n ih => rw [ofBits, ofBits, ih fun k hk => h k (by omega), h n n.lt_succ_self]

/-- A number is zero when none of its bits is set. -/
theorem ofBits_eq_zero_iff {p : Nat → Bool} {n : Nat} : ofBits p n = 0 ↔ ∀ k < n, p k = false := by
  induction n with
  | zero => simp [ofBits]
  | succ n ih =>
    rw [ofBits, Nat.add_eq_zero_iff, ih, Nat.forall_lt_succ_right]
    simp

/-- The low n bits and those above them. -/
theorem ofBits_add (p : Nat → Bool) (n m : Nat) : ofBits p (n + m) = ofBits p n + 2 ^ n * ofBits (fun k => p (n + k)) m := by
  induction m with
  | zero => simp [ofBits]
  | succ m ih =>
    rw [← Nat.add_assoc, ofBits, ih, ofBits, mul_add, ← Nat.add_assoc, pow_add]
    split <;> simp

/-- A value is the number of its bits. -/
theorem toNat_eq_ofBits {w : Nat} {v : BitVec w} {p : Nat → Bool} (h : ∀ k < w, v.getLsbD k = p k) : v.toNat = ofBits p w := by
  refine Nat.eq_of_testBit_eq fun k => ?_
  by_cases hk : k < w
  · rw [testBit_ofBits p hk, ← h k hk, BitVec.getLsbD]
  · have hpow : 2 ^ w ≤ 2 ^ k := Nat.pow_le_pow_right (by decide) (by omega)
    rw [Nat.testBit_lt_two_pow (v.isLt.trans_le hpow), Nat.testBit_lt_two_pow ((ofBits_lt p w).trans_le hpow)]

/-- A result is the number whose bits the statement gives, from its bits. -/
theorem eq_ofInt_ofBits {w : Nat} {v : BitVec w} {p : Nat → Bool} (h : ∀ k < w, v.getLsbD k = p k) :
    v = BitVec.ofInt w (ofBits p w : Nat) := by
  rw [← toNat_eq_ofBits h]
  exact eq_ofInt_toNat v

/-- The value has the low bits of the number. -/
def HasBits {w : Nat} (a : BitVec w) (m : Nat) : Prop := ∀ k < w, a.getLsbD k = m.testBit k

theorem hasBits_toNat {w : Nat} (a : BitVec w) : HasBits a a.toNat := fun _ _ => rfl

/-- The low bits of a register are those of the number it reads: at width XLEN and in the low word alike. -/
theorem hasBits_getX (s : State) (r : RegIdx) (n : Nat) : HasBits ((s.getX r).setWidth n) (uval s r) := fun k hk => by
  simp [hk, uval, BitVec.getLsbD]

/-! ## Shift and add (R441 to R448) -/

theorem shiftAdd_computes {k : Nat} {c : Int} (hc : c = 2 ^ k) : Computes (fun _ a b => b + a <<< k) fun _ a b => a * c + b :=
  fun w a b => by
    have hshift : a <<< k = BitVec.ofInt w (a.toNat * c) := by
      rw [hc]
      exact_mod_cast eq_ofInt_natCast (by rw [BitVec.toNat_shiftLeft, Nat.shiftLeft_eq])
    simp [hshift, BitVec.ofInt_add, BitVec.add_comm]

theorem lowWord_toNat (a : Word) : (lowWord a).toNat = a.toNat % 2 ^ 32 := by
  simp only [lowWord, BitVec.toNat_setWidth]
  omega

/-- A low word shifted left by an amount is a multiple of the number of the low word. -/
theorem setWidth_lowWord_shiftLeft (xlen : Xlen) (a : Word) {k : Nat} {c : Int} (hc : c = 2 ^ k) :
    (lowWord a <<< k).setWidth xlen.bits = BitVec.ofInt xlen.bits ((a.toNat % 2 ^ 32 : Nat) * c) := by
  rw [hc]
  exact_mod_cast eq_ofInt_natCast (by
    rw [BitVec.toNat_setWidth, BitVec.toNat_shiftLeft, lowWord_toNat, Nat.shiftLeft_eq,
      Nat.mod_mod_of_dvd _ (pow_dvd_pow 2 (xlen_bits_le xlen))])

section
variable {s : State} {n : Nat} {rd rs1 rs2 : RegIdx}

/-- A sum of the shifted low word of a register and a register. -/
theorem shiftAddUw_writesX {k : Nat} {c : Int} (hc : c = 2 ^ k) :
    WritesX s (s.alu2 n rd addOp (lowWord (s.getX rs1) <<< k) (s.getX rs2)) n rd
      (wrap s ((uval s rs1 % 2 ^ 32 : Nat) * c + uval s rs2)) :=
  alu2_writesX (by
    rw [addOp, setWidth_lowWord_shiftLeft _ _ hc, eq_ofInt_toNat ((s.getX rs2).setWidth _), uval_eq, ← BitVec.ofInt_add]
    rfl)

/-- add.uw is the sum with no shift (R441). -/
theorem addUw_writesX :
    WritesX s (exec (.addUw rd rs1 rs2) s) 4 rd (wrap s ((uval s rs1 % 2 ^ 32 : Nat) + uval s rs2)) := by
  have h := shiftAddUw_writesX (s := s) (n := 4) (rd := rd) (rs1 := rs1) (rs2 := rs2) (k := 0) (c := 1) (by norm_num)
  rwa [BitVec.shiftLeft_zero, mul_one] at h

/-- slli.uw shifts the low word (R448). -/
theorem slliUw_writesX {shamt : BitVec 6} (hk : shamt.toNat < s.cfg.xlen.bits) :
    WritesX s (exec (.slliUw rd rs1 shamt) s) 4 rd (wrap s ((uval s rs1 % 2 ^ 32 : Nat) * 2 ^ shamt.toNat)) := by
  have hshift : amount ((zext shamt).setWidth s.cfg.xlen.bits) = shamt.toNat := by
    rw [amount, zext, BitVec.setWidth_setWidth_of_le _ (xlen_bits_le _), BitVec.toNat_setWidth,
      Nat.mod_eq_of_lt (hk.trans Nat.lt_two_pow_self), Nat.mod_eq_of_lt hk]
  refine alu2_writesX ?_
  rw [sllOp, hshift, ← BitVec.setWidth_shiftLeft_of_le (xlen_bits_le _)]
  exact setWidth_lowWord_shiftLeft _ _ rfl

end

/-! ## Logic, order and rotation (R449 to R451, R458 to R461, R465 to R470) -/

theorem andn_computes : Computes (fun _ a b => a &&& ~~~b) fun n a b => ofBits (fun k => a.testBit k && !b.testBit k) n :=
  fun _ _ _ => eq_ofInt_ofBits fun k hk => by
    rw [BitVec.getLsbD_and, BitVec.getLsbD_not, decide_eq_true hk, Bool.true_and]
    rfl

theorem orn_computes : Computes (fun _ a b => a ||| ~~~b) fun n a b => ofBits (fun k => a.testBit k || !b.testBit k) n :=
  fun _ _ _ => eq_ofInt_ofBits fun k hk => by
    rw [BitVec.getLsbD_or, BitVec.getLsbD_not, decide_eq_true hk, Bool.true_and]
    rfl

theorem xnor_computes : Computes (fun _ a b => ~~~(a ^^^ b)) fun n a b => ofBits (fun k => a.testBit k == b.testBit k) n :=
  fun _ _ _ => eq_ofInt_ofBits fun k hk => by
    rw [BitVec.getLsbD_not, BitVec.getLsbD_xor, decide_eq_true hk, Bool.true_and, ← Bool.bne_eq_xor, bne, Bool.not_not]
    rfl

/-- The larger of two values read as signed numbers (R458). -/
theorem maxOp_signed_computes : Computes (maxOp ltSigned) fun n a b => max (signed n a) (signed n b) := fun w a b => by
  dsimp only
  rw [signed_toNat, signed_toNat, maxOp, ltSigned, BitVec.slt_eq_decide, max_def_lt, apply_ite (BitVec.ofInt w)]
  simp

/-- The smaller of two values read as signed numbers (R460). -/
theorem minOp_signed_computes : Computes (minOp ltSigned) fun n a b => min (signed n a) (signed n b) := fun w a b => by
  dsimp only
  rw [signed_toNat, signed_toNat, minOp, ltSigned, BitVec.slt_eq_decide, min_def_lt, apply_ite (BitVec.ofInt w)]
  simp

/-- Bit k of a value rotated left comes from below it, modulo the width (R440, R465). -/
theorem getLsbD_rotateLeft_mod {w : Nat} (a : BitVec w) {r k : Nat} (hr : r < w) (hk : k < w) :
    (a.rotateLeft r).getLsbD k = a.getLsbD ((k + w - r) % w) := by
  rw [BitVec.getLsbD_rotateLeft_of_le hr]
  by_cases hkr : k < r
  · rw [decide_eq_true hkr, cond_true, Nat.mod_eq_of_lt (by omega), show w - r + k = k + w - r by omega]
  · rw [decide_eq_false hkr, decide_eq_true hk, cond_false, Bool.true_and, show k + w - r = k - r + w by omega,
      Nat.add_mod_right, Nat.mod_eq_of_lt (by omega)]

/-- Bit k of a value rotated right comes from above it, modulo the width (R440, R467). -/
theorem getLsbD_rotateRight_mod {w : Nat} (a : BitVec w) {r k : Nat} (hr : r < w) (hk : k < w) :
    (a.rotateRight r).getLsbD k = a.getLsbD ((k + r) % w) := by
  rw [BitVec.getLsbD_rotateRight_of_lt hr]
  by_cases hkr : k < w - r
  · rw [decide_eq_true hkr, cond_true, Nat.mod_eq_of_lt (by omega), Nat.add_comm]
  · rw [decide_eq_false hkr, decide_eq_true hk, cond_false, Bool.true_and, show k + r = k - (w - r) + w by omega,
      Nat.add_mod_right, Nat.mod_eq_of_lt (by omega)]

theorem rolOp_eq {w m : Nat} {a : BitVec w} (h : HasBits a m) (b : BitVec w) :
    rolOp w a b = BitVec.ofInt w (ofBits (fun k => m.testBit ((k + w - b.toNat % w) % w)) w : Nat) :=
  eq_ofInt_ofBits fun k hk => by
    have hw : 0 < w := by omega
    rw [rolOp, amount, getLsbD_rotateLeft_mod _ (Nat.mod_lt _ hw) hk, h _ (Nat.mod_lt _ hw)]

theorem rorOp_eq {w m : Nat} {a : BitVec w} (h : HasBits a m) (b : BitVec w) :
    rorOp w a b = BitVec.ofInt w (ofBits (fun k => m.testBit ((k + b.toNat % w) % w)) w : Nat) :=
  eq_ofInt_ofBits fun k hk => by
    have hw : 0 < w := by omega
    rw [rorOp, amount, getLsbD_rotateRight_mod _ (Nat.mod_lt _ hw) hk, h _ (Nat.mod_lt _ hw)]

theorem rolOp_computes : Computes rolOp fun n a b => ofBits (fun k => a.testBit ((k + n - b % n) % n)) n :=
  fun _ a => rolOp_eq (hasBits_toNat a)

theorem rorOp_computes : Computes rorOp fun n a b => ofBits (fun k => a.testBit ((k + b % n) % n)) n :=
  fun _ a => rorOp_eq (hasBits_toNat a)

/-- A rotation of the low word of a register, from where its operation takes each bit (R466, R469, R470). -/
theorem rotateWord_writesX {s : State} {rd rs1 : RegIdx} {op : ∀ w, BitVec w → BitVec w → BitVec w} {b : Word} {r : Nat}
    (source : Nat → Nat → Nat → Nat)
    (h : ∀ {w m : Nat} {a : BitVec w}, HasBits a m → ∀ b : BitVec w,
      op w a b = BitVec.ofInt w (ofBits (fun k => m.testBit (source w (b.toNat % w) k)) w : Nat))
    (hr : b.toNat % 32 = r) :
    WritesX s (s.aluWord 4 rd (op 32) (s.getX rs1) b) 4 rd
      (wrap s (signed 32 (ofBits (fun k => (uval s rs1).testBit (source 32 r k)) 32))) := by
  have hb : (b.setWidth 32).toNat % 32 = r := by
    rw [BitVec.toNat_setWidth, ← hr]
    omega
  exact aluWord_writesX (by rw [h (hasBits_getX s rs1 32), hb])

/-- Settles O20: each instruction writes what its operation computes of the numbers of its operands, the rotations bit by bit. -/
theorem bitmanipArithmeticCompletes : Obligations.BitmanipArithmeticCompletes := by
  refine ⟨fun row hrow rd rs1 rs2 s => ?_,
    fun rd rs1 shamt s hk => ⟨slliUw_writesX hk, alu2_shamt rorOp_computes hk (by simp only [Nat.mod_eq_of_lt hk])⟩,
    fun rd rs1 shamt s => ?_⟩
  · fin_cases hrow <;> dsimp only
    · exact addUw_writesX
    · exact alu2_registers (shiftAdd_computes rfl)
    · exact shiftAddUw_writesX rfl
    · exact alu2_registers (shiftAdd_computes rfl)
    · exact shiftAddUw_writesX rfl
    · exact alu2_registers (shiftAdd_computes rfl)
    · exact shiftAddUw_writesX rfl
    · exact alu2_registers andn_computes
    · exact alu2_registers orn_computes
    · exact alu2_registers xnor_computes
    · exact alu2_registers maxOp_signed_computes
    · exact alu2_registers maxUnsigned_computes
    · exact alu2_registers minOp_signed_computes
    · exact alu2_registers minUnsigned_computes
    · exact alu2_registers rolOp_computes
    · exact alu2_registers rorOp_computes
    · exact rotateWord_writesX (fun n r k => (k + n - r) % n) rolOp_eq rfl
    · exact rotateWord_writesX (fun n r k => (k + r) % n) rorOp_eq rfl
  · exact rotateWord_writesX (fun n r k => (k + r) % n) rorOp_eq (by simp only [zext, BitVec.toNat_setWidth]; omega)

/-! ## Counts of zeros and ones (R452 to R457) -/

/-- The first of k + 1 places is the lowest, or one past the first of the k above it. -/
theorem find?_range_succ (p : Nat → Bool) (k : Nat) :
    ((List.range (k + 1)).find? p).getD (k + 1)
      = if p 0 then 0 else ((List.range k).find? fun j => p (j + 1)).getD k + 1 := by
  rw [List.range_succ_eq_map, List.find?_cons, List.find?_map]
  cases p 0
  · cases h : (List.range k).find? fun j => p (j + 1) <;> simp [h]
  · rfl

section
variable {w m : Nat} {a : BitVec w}

/-- The leading zeros of the k low bits are the places from bit k - 1 down to the first set bit. -/
theorem leadingZeros_eq (h : HasBits a m) {k : Nat} (hk : k ≤ w) :
    leadingZeros a k = ((List.range k).find? fun j => m.testBit (k - 1 - j)).getD k := by
  induction k with
  | zero => rfl
  | succ k ih =>
    rw [leadingZeros, find?_range_succ, h k hk, ih (by omega)]
    simp only [Nat.add_sub_cancel, Nat.sub_zero, Nat.sub_add_eq, Nat.sub_right_comm]

/-- The trailing zeros of the k high bits are the places from bit w - k up to the first set bit. -/
theorem trailingZeros_eq (h : HasBits a m) {k : Nat} (hk : k ≤ w) :
    trailingZeros a k = ((List.range k).find? fun j => m.testBit (w - k + j)).getD k := by
  induction k with
  | zero => rfl
  | succ k ih =>
    have hplace : ∀ j, w - (k + 1) + (j + 1) = w - k + j := by omega
    rw [trailingZeros, find?_range_succ, h _ (by omega), ih (by omega)]
    simp only [Nat.add_zero, hplace]

/-- The set bits among the k low bits are the places below k where a bit is set. -/
theorem popCount_eq (h : HasBits a m) {k : Nat} (hk : k ≤ w) :
    popCount a k = (List.range k).countP fun j => m.testBit j := by
  induction k with
  | zero => rfl
  | succ k ih =>
    rw [popCount, List.range_succ, List.countP_append, List.countP_singleton, h k hk, ih (by omega)]

theorem clzOp_eq (h : HasBits a m) :
    clzOp w a = BitVec.ofNat w (((List.range w).find? fun k => m.testBit (w - 1 - k)).getD w) := by
  rw [clzOp, leadingZeros_eq h le_rfl]

theorem ctzOp_eq (h : HasBits a m) :
    ctzOp w a = BitVec.ofNat w (((List.range w).find? fun k => m.testBit k).getD w) := by
  rw [ctzOp, trailingZeros_eq h le_rfl]
  simp only [Nat.sub_self, Nat.zero_add]

theorem cpopOp_eq (h : HasBits a m) :
    cpopOp w a = BitVec.ofNat w ((List.range w).countP fun k => m.testBit k) := by
  rw [cpopOp, popCount_eq h le_rfl]

end

/-- A place found below n, or n, is at most n. -/
theorem getD_find?_range_le (p : Nat → Bool) (n : Nat) : ((List.range n).find? p).getD n ≤ n := by
  cases h : (List.range n).find? p with
  | none => exact le_rfl
  | some k => exact (List.mem_range.mp (List.mem_of_find?_eq_some h)).le

section
variable {s : State} {n : Nat} {rd rs1 : RegIdx}

/-- An operation on a register, from what it computes of a value that has the bits of the number the register reads. -/
theorem alu1_register {op : ∀ w, BitVec w → BitVec w} {v : Nat}
    (h : HasBits ((s.getX rs1).setWidth s.cfg.xlen.bits) (uval s rs1) →
      op s.cfg.xlen.bits ((s.getX rs1).setWidth _) = BitVec.ofNat _ v) :
    WritesX s (s.alu1 n rd op (s.getX rs1)) n rd (wrap s v) :=
  alu1_writesX (by rw [h (hasBits_getX _ _ _), BitVec.ofInt_natCast])

/-- A count in the low word of a register, zero-extended: it is at most 32. -/
theorem countWord_writesX {v : BitVec 32} {k : Nat} (h : v = BitVec.ofNat 32 k) (hk : k ≤ 32) :
    WritesX s (.next (s.writeX n rd (zext v))) n rd (wrap s k) :=
  writesX_writeX (by rw [cut_zext, h, BitVec.toNat_ofNat, Nat.mod_eq_of_lt (by omega)])

end

/-! ## Bytes (R471, R472) -/

section
variable {w m : Nat} {a : BitVec w}

/-- A byte of a value is the number of its eight bits. -/
theorem toNat_byte (h : HasBits a m) {i : Nat} (hi : 8 * i + 8 ≤ w) :
    (a.extractLsb' (8 * i) 8).toNat = ofBits (fun j => m.testBit (8 * i + j)) 8 :=
  toNat_eq_ofBits fun j hj => by rw [BitVec.getLsbD_extractLsb', decide_eq_true hj, Bool.true_and, h _ (by omega)]

/-- A byte is zero when none of its bits is set. -/
theorem byte_eq_zero_iff (h : HasBits a m) {i : Nat} (hi : 8 * i + 8 ≤ w) :
    a.extractLsb' (8 * i) 8 = 0#8 ↔ (List.range 8).any (fun j => m.testBit (8 * i + j)) = false := by
  simp only [eq_zero_iff_toNat, toNat_byte h hi, ofBits_eq_zero_iff, List.any_eq_false, List.mem_range, Bool.not_eq_true]

/-- The k low bytes of the or-combination, bit by bit. -/
theorem orCombine_eq (h : HasBits a m) {k : Nat} (hk : 8 * k ≤ w) :
    orCombine a k = ofBits (fun j => (List.range 8).any fun i => m.testBit (j / 8 * 8 + i)) (8 * k) := by
  induction k with
  | zero => rfl
  | succ k ih =>
    have hbyte : ∀ j < 8, ((List.range 8).any fun i => m.testBit ((8 * k + j) / 8 * 8 + i))
        = (List.range 8).any fun i => m.testBit (8 * k + i) := fun j hj => by
      rw [show (8 * k + j) / 8 * 8 = 8 * k by omega]
    rw [orCombine, ih (by omega), Nat.mul_succ, ofBits_add, ofBits_congr hbyte]
    simp only [byte_eq_zero_iff h hk]
    cases (List.range 8).any fun i => m.testBit (8 * k + i) <;> simp [ofBits, mul_comm]

/-- The k high bytes in reverse order, bit by bit, below those of acc. -/
theorem reverseBytes_eq (h : HasBits a m) {k : Nat} (hk : k ≤ w / 8) (acc : Nat) :
    reverseBytes a k acc
      = acc * 2 ^ (8 * k) + ofBits (fun j => m.testBit (8 * (w / 8 - 1 - j / 8) + j % 8)) (8 * k) := by
  induction k generalizing acc with
  | zero => simp [reverseBytes, ofBits]
  | succ k ih =>
    have hbits : ∀ j < 8, m.testBit (8 * (w / 8 - 1 - (8 * k + j) / 8) + (8 * k + j) % 8)
        = m.testBit (8 * (w / 8 - (k + 1)) + j) := fun j hj => by
      rw [show (8 * k + j) / 8 = k by omega, show (8 * k + j) % 8 = j by omega, Nat.sub_sub, Nat.add_comm 1 k]
    rw [reverseBytes, ih (by omega), toNat_byte h (by omega), Nat.mul_succ, ofBits_add, ofBits_congr hbits]
    ring

theorem orcbOp_eq (hw : 8 ∣ w) (h : HasBits a m) :
    orcbOp w a = BitVec.ofNat w (ofBits (fun k => (List.range 8).any fun j => m.testBit (k / 8 * 8 + j)) w) := by
  have h8 : 8 * (w / 8) = w := Nat.mul_div_cancel' hw
  rw [orcbOp, orCombine_eq h h8.le, h8]

theorem rev8Op_eq (hw : 8 ∣ w) (h : HasBits a m) :
    rev8Op w a = BitVec.ofNat w (ofBits (fun k => m.testBit (w - 8 - k / 8 * 8 + k % 8)) w) := by
  have h8 : 8 * (w / 8) = w := Nat.mul_div_cancel' hw
  have hbits : ∀ k < w, m.testBit (8 * (w / 8 - 1 - k / 8) + k % 8) = m.testBit (w - 8 - k / 8 * 8 + k % 8) := fun k _ => by
    congr 1
    omega
  rw [rev8Op, reverseBytes_eq h le_rfl, h8, ofBits_congr hbits, Nat.zero_mul, Nat.zero_add]

end

theorem eight_dvd_xlen_bits (xlen : Xlen) : 8 ∣ xlen.bits := by cases xlen <;> decide

/-- Settles O21: each instruction writes what its operation computes of a value with the bits of its operand. -/
theorem bitmanipUnaryCompletes : Obligations.BitmanipUnaryCompletes := by
  intro row hrow rd rs1 s
  fin_cases hrow <;> dsimp only
  · exact alu1_register clzOp_eq
  · exact countWord_writesX (clzOp_eq (hasBits_getX s rs1 32)) (getD_find?_range_le _ _)
  · exact alu1_register ctzOp_eq
  · exact countWord_writesX (ctzOp_eq (hasBits_getX s rs1 32)) (getD_find?_range_le _ _)
  · exact alu1_register cpopOp_eq
  · exact countWord_writesX (cpopOp_eq (hasBits_getX s rs1 32)) (List.countP_le_length.trans_eq List.length_range)
  · exact signedLow_writesX 8
  · exact signedLow_writesX 16
  · exact unsignedLow_writesX 16
  · exact unsignedLow_writesX 16
  · exact alu1_register (orcbOp_eq (eight_dvd_xlen_bits _))
  · exact alu1_register (rev8Op_eq (eight_dvd_xlen_bits _))
  · exact alu1_register (rev8Op_eq (eight_dvd_xlen_bits _))

/-! ## Carry-less products (R473 to R475) -/

/-- Counting below a greater bound counts nothing more when no place from the smaller bound on counts. -/
theorem countP_range_of_le {p : Nat → Bool} {n m : Nat} (hnm : n ≤ m) (h : ∀ j, n ≤ j → p j = false) :
    (List.range m).countP p = (List.range n).countP p := by
  obtain ⟨d, rfl⟩ := Nat.exists_eq_add_of_le hnm
  rw [List.range_add, List.countP_append, List.countP_map, Nat.add_eq_left, List.countP_eq_zero]
  simp [h]

/-- Counting the places up to i from above counts as many. -/
theorem countP_range_reflect (p : Nat → Bool) (i : Nat) :
    (List.range (i + 1)).countP (fun j => p (i - j)) = (List.range (i + 1)).countP p := by
  have hreverse : (List.range (i + 1)).map (fun j => i - j) = (List.range (i + 1)).reverse := by
    rw [List.range_eq_range', List.reverse_range', ← List.range_eq_range']
    simp
  rw [← List.countP_reverse (p := p), ← hreverse, List.countP_map]
  rfl

/-- A place adds to bit i of the product where the bit of b there is set and the bit of a that makes it up to i is. -/
def crosses (a b i j : Nat) : Bool := b.testBit j && (decide (j ≤ i) && a.testBit (i - j))

/-- One place more that counts changes the parity of the count. -/
theorem parity_add (c : Nat) (x : Bool) : ((c + if x then 1 else 0) % 2 == 1) = (c % 2 == 1 ^^ x) := by
  obtain hc | hc := Nat.mod_two_eq_zero_or_one c <;> cases x <;> simp [Nat.add_mod, hc]

/-- Bit i of the product by the k low bits of b is the parity of the places below k that add to it. -/
theorem testBit_carryless {w : Nat} (a b : BitVec w) (k i : Nat) :
    (carryless a b k).testBit i = ((List.range k).countP (crosses a.toNat b.toNat i) % 2 == 1) := by
  induction k with
  | zero => simp [carryless]
  | succ k ih =>
    have hterm : (if b.getLsbD k then a.toNat * 2 ^ k else 0).testBit i = crosses a.toNat b.toNat i k := by
      rw [crosses, BitVec.testBit_toNat b]
      cases b.getLsbD k
      · simp
      · simp [Nat.testBit_mul_two_pow]
    rw [carryless, Nat.testBit_xor, ih, hterm, List.range_succ, List.countP_append, List.countP_singleton, parity_add]

/-- The bits of the carry-less product are those of the statements, which count the places of a. -/
theorem testBit_carryless_eq {w : Nat} (a b : BitVec w) (i : Nat) :
    (carryless a b w).testBit i = carrylessBit a.toNat b.toNat i := by
  have hb : ∀ j, w ≤ j → crosses a.toNat b.toNat i j = false := fun j hj => by
    rw [crosses, BitVec.testBit_toNat b, BitVec.getLsbD_of_ge b j hj, Bool.false_and]
  have hi : ∀ j, i + 1 ≤ j → crosses a.toNat b.toNat i j = false := fun j hj => by
    rw [crosses, decide_eq_false (by omega), Bool.false_and, Bool.and_false]
  have hcount : (List.range w).countP (crosses a.toNat b.toNat i)
      = (List.range (i + 1)).countP (fun j => a.toNat.testBit j && b.toNat.testBit (i - j)) := by
    calc (List.range w).countP (crosses a.toNat b.toNat i)
      _ = (List.range (w + (i + 1))).countP (crosses a.toNat b.toNat i) := (countP_range_of_le (by omega) hb).symm
      _ = (List.range (i + 1)).countP (crosses a.toNat b.toNat i) := countP_range_of_le (by omega) hi
      _ = (List.range (i + 1)).countP (fun j => crosses a.toNat b.toNat i (i - j)) := (countP_range_reflect _ i).symm
      _ = _ := List.countP_congr fun j hj => by
        have hji : j ≤ i := Nat.lt_succ_iff.mp (List.mem_range.mp hj)
        rw [crosses, Nat.sub_sub_self hji, decide_eq_true (Nat.sub_le i j), Bool.true_and, Bool.and_comm]
  rw [testBit_carryless, hcount, carrylessBit]

theorem clmulOp_computes : Computes clmulOp fun n a b => ofBits (fun k => carrylessBit a b k) n := fun w a b =>
  eq_ofInt_ofBits fun k hk => by
    rw [clmulOp, BitVec.getLsbD_ofNat, decide_eq_true hk, Bool.true_and, testBit_carryless_eq]

theorem clmulhOp_computes : Computes clmulhOp fun n a b => ofBits (fun k => carrylessBit a b (k + n)) n := fun w a b =>
  eq_ofInt_ofBits fun k hk => by
    rw [clmulhOp, BitVec.getLsbD_ofNat, decide_eq_true hk, Bool.true_and, Nat.testBit_div_two_pow, testBit_carryless_eq]

theorem clmulrOp_computes : Computes clmulrOp fun n a b => ofBits (fun k => carrylessBit a b (k + n - 1)) n := fun w a b =>
  eq_ofInt_ofBits fun k hk => by
    rw [clmulrOp, BitVec.getLsbD_ofNat, decide_eq_true hk, Bool.true_and, Nat.testBit_div_two_pow, testBit_carryless_eq,
      Nat.add_sub_assoc (by omega)]

/-! ## Single bits (R476 to R483) -/

/-- The single bit an operand selects is the one its amount names. -/
theorem getLsbD_oneBit {w k : Nat} (b : BitVec w) (hk : k < w) : (oneBit w b).getLsbD k = (k == b.toNat % w) := by
  have hb : b.toNat % w < w := Nat.mod_lt _ (by omega)
  rw [oneBit, amount, ← BitVec.twoPow_eq, BitVec.getLsbD_twoPow, decide_eq_true hb, Bool.true_and, Bool.eq_iff_iff,
    decide_eq_true_iff, beq_iff_eq, eq_comm]

theorem bclrOp_computes : Computes bclrOp fun n a b => ofBits (fun k => a.testBit k && k != b % n) n := fun w a b =>
  eq_ofInt_ofBits fun k hk => by
    rw [bclrOp, BitVec.getLsbD_and, BitVec.getLsbD_not, decide_eq_true hk, Bool.true_and, getLsbD_oneBit b hk]
    rfl

theorem binvOp_computes : Computes binvOp fun n a b => ofBits (fun k => a.testBit k != (k == b % n)) n := fun w a b =>
  eq_ofInt_ofBits fun k hk => by
    rw [binvOp, BitVec.getLsbD_xor, getLsbD_oneBit b hk, ← Bool.bne_eq_xor]
    rfl

theorem bsetOp_computes : Computes bsetOp fun n a b => ofBits (fun k => a.testBit k || k == b % n) n := fun w a b =>
  eq_ofInt_ofBits fun k hk => by
    rw [bsetOp, BitVec.getLsbD_or, getLsbD_oneBit b hk]
    rfl

theorem bextOp_computes : Computes bextOp fun n a b => truth (a.testBit (b % n)) := fun w a b => by
  dsimp only
  rw [bextOp, amount, BitVec.and_one_eq_setWidth_ofBool_getLsbD, BitVec.getLsbD_ushiftRight, Nat.add_zero, BitVec.testBit_toNat]
  have hone : (1#1).setWidth w = 1#w := BitVec.eq_of_toNat_eq (by simp)
  cases a.getLsbD (b.toNat % w) <;> simp [truth, hone]

/-- Settles O22: each instruction writes what its operation computes of the numbers of its operands. -/
theorem bitmanipBitInstructionsComplete : Obligations.BitmanipBitInstructionsComplete := by
  refine ⟨fun row hrow rd rs1 rs2 s => ?_, fun row hrow rd rs1 shamt s hk => ?_⟩ <;> fin_cases hrow <;> dsimp only
  · exact alu2_registers clmulOp_computes
  · exact alu2_registers clmulhOp_computes
  · exact alu2_registers clmulrOp_computes
  · exact alu2_registers bclrOp_computes
  · exact alu2_registers bextOp_computes
  · exact alu2_registers binvOp_computes
  · exact alu2_registers bsetOp_computes
  · exact alu2_shamt bclrOp_computes hk (by simp only [Nat.mod_eq_of_lt hk])
  · exact alu2_shamt bextOp_computes hk (by simp only [Nat.mod_eq_of_lt hk])
  · exact alu2_shamt binvOp_computes hk (by simp only [Nat.mod_eq_of_lt hk])
  · exact alu2_shamt bsetOp_computes hk (by simp only [Nat.mod_eq_of_lt hk])

end Sys2Proof.Machine
end

section
/-! Proofs about the privilege modes (60_exceptions.md R614, R621, R622): what changes the mode, and what an instruction of U mode
leaves of the registers of the higher modes. -/

namespace Sys2Proof.Machine

/-! ## What writes leave of the higher modes -/

/-- The mode and the registers of the supervisor and machine modes are the same, but for mstatus.FS, which floating-point
instructions set (10_state.md R33, R34, R39). -/
structure SystemKept (s t : State) : Prop where
  priv : t.priv = s.priv
  mtvec : t.mtvec = s.mtvec
  mscratch : t.mscratch = s.mscratch
  mepc : t.mepc = s.mepc
  mcause : t.mcause = s.mcause
  mtval : t.mtval = s.mtval
  stvec : t.stvec = s.stvec
  sscratch : t.sscratch = s.sscratch
  sepc : t.sepc = s.sepc
  scause : t.scause = s.scause
  stval : t.stval = s.stval
  mstatus : t.mstatus = { s.mstatus with fs := t.mstatus.fs }

namespace SystemKept
variable {s t u : State}

theorem refl (s : State) : SystemKept s s := by constructor <;> rfl

theorem trans (h : SystemKept s t) (k : SystemKept t u) : SystemKept s u where
  priv := k.priv.trans h.priv
  mtvec := k.mtvec.trans h.mtvec
  mscratch := k.mscratch.trans h.mscratch
  mepc := k.mepc.trans h.mepc
  mcause := k.mcause.trans h.mcause
  mtval := k.mtval.trans h.mtval
  stvec := k.stvec.trans h.stvec
  sscratch := k.sscratch.trans h.sscratch
  sepc := k.sepc.trans h.sepc
  scause := k.scause.trans h.scause
  stval := k.stval.trans h.stval
  mstatus := by rw [k.mstatus, h.mstatus]

theorem setX (s : State) (r : RegIdx) (v : Word) : SystemKept s (s.setX r v) := by constructor <;> simp

theorem dirtyFs (s : State) : SystemKept s s.dirtyFs := by constructor <;> simp [dirtyFs_mstatus]

theorem poke (s : State) (addr : Word) (n : Nat) (v : Word) : SystemKept s (s.poke addr n v) := by constructor <;> simp

end SystemKept

/-- Writes of registers, of flags and of memory leave the mode and the registers of the higher modes. -/
theorem Written.systemKept {s u : State} (hu : Written s u) : SystemKept s u := by
  induction hu with
  | refl => exact .refl s
  | setX r v _ ih => exact ih.trans (.setX _ r v)
  | setF _ _ _ ih | orFlags _ _ ih => exact (ih.trans (.dirtyFs _)).trans (by constructor <;> rfl)
  | poke addr n v _ ih => exact ih.trans (.poke _ addr n v)
  | drawn _ ih => exact ih.trans (by constructor <;> rfl)

/-- Writes leave pc: an instruction moves it after them (10_state.md R26). -/
theorem Written.pc_eq {s u : State} (hu : Written s u) : u.pc = s.pc := by
  induction hu with
  | refl => rfl
  | setX _ _ _ ih | setF _ _ _ ih | orFlags _ _ ih | poke _ _ _ _ ih | drawn _ ih => simpa using ih

/-- A write of a CSR leaves the mode (10_state.md R39). -/
theorem csrWrite_priv (s : State) (v : Word) (c : Csr) : (s.csrWrite v c).priv = s.priv := by
  cases c with
  | mstatus =>
    obtain ⟨p, d, hw, -⟩ := csrWrite_mstatus s v
    rw [hw]
  | fflags | frm | fcsr | jvt | sstatus | stvec | sscratch | sepc | scause | stval | mtvec | mscratch | mepc | mcause | mtval =>
    simp [State.csrWrite]

/-- The CSRs that U mode may access: the views of fcsr and jvt (10_state.md R33). -/
def userCsrs : List Csr := [.fflags, .frm, .fcsr, .jvt]

/-- A CSR access that passes its checks in U mode is of one of those (60_exceptions.md R622). -/
theorem userCsr_of_csrCheck {s : State} {i : Instr} {addr : CsrAddr} {writes : Bool} {c : Csr} (hpriv : s.priv = .U)
    (h : s.csrCheck i addr writes = .ok c) : c ∈ userCsrs := by
  have htable : ∀ p ∈ csrTable, p.1 / 2 ^ 8 % 2 ^ 2 = 0 → p.2 ∈ userCsrs := by decide
  obtain ⟨hof, -, hmode, -⟩ := csrCheck_ok h
  refine htable _ (csrOf_eq_some.1 hof) ?_
  rw [hpriv, BitVec.extractLsb'_toNat, Nat.shiftRight_eq_div_pow] at hmode
  exact Nat.le_zero.1 hmode

/-- A write of one of those leaves the registers of the higher modes (10_state.md R31, R38). -/
theorem csrWrite_systemKept {c : Csr} (h : c ∈ userCsrs) (s : State) (v : Word) : SystemKept s (s.csrWrite v c) := by
  cases c with
  | fflags | frm | fcsr => exact (SystemKept.dirtyFs s).trans (by constructor <;> rfl)
  | jvt => constructor <;> rfl
  | _ => exact absurd h (by decide)

/-! ## Taking an exception -/

/-- A trap was taken: after writes that the instruction made before, the handler is entered (60_exceptions.md R612, R614). -/
def Trapped (s t : State) : Prop := ∃ u c v, Written s u ∧ t = u.enterTrap c v

/-- A trap of the fetch or of the decoding is taken before any write (60_exceptions.md R602, R603). -/
theorem trapped_enterTrap (s : State) (c : Exc) (v : Word) : Trapped s (s.enterTrap c v) := ⟨s, c, v, .refl, rfl⟩

/-- What a trap leaves behind is of the state before the writes: they reach none of what it saves (60_exceptions.md R614). -/
theorem Written.enterTrap_saves {s u : State} (hu : Written s u) (c : Exc) (v : Word) :
    (u.enterTrap c v).pc = s.handler ∧ (u.enterTrap c v).mepc = epcValue s.cfg s.pc
      ∧ (u.enterTrap c v).mstatus
        = { s.mstatus with fs := u.mstatus.fs, mpie := s.mstatus.mie, mie := false, mpp := s.priv } := by
  have hk := hu.systemKept
  refine ⟨?_, ?_, ?_⟩
  · rw [enterTrap_pc, State.handler, State.handler, hu.cfg_eq, hk.mtvec]
  · rw [enterTrap_mepc, hu.cfg_eq, hu.pc_eq]
  · rw [enterTrap_mstatus, hk.mstatus, hk.priv]

/-! ## What an instruction does to the higher modes -/

section
variable {i : Instr} {s t : State}

/-- An instruction that changes the mode has trapped, or is a return in a mode that may run it (60_exceptions.md R621). -/
theorem Effect.priv_changed (h : Effect i s t) (hne : t.priv ≠ s.priv) :
    Trapped s t ∨ (i = .mret ∧ s.priv = .M ∧ t.priv = s.mstatus.mpp)
      ∨ (i = .sret ∧ s.priv ≠ .U ∧ t.priv = if s.mstatus.spp then .S else .U) := by
  cases h with
  | retire hu | jump hu | reserve hu | unreserve hu => exact absurd hu.systemKept.priv hne
  | trap hu => exact .inl ⟨_, _, _, hu, rfl⟩
  | writeCsr _ hu hw =>
    exact absurd (hw.systemKept.priv.trans ((csrWrite_priv _ _ _).trans hu.systemKept.priv)) hne
  | fetchFence | wait => exact absurd rfl hne
  | returnFromM hi hpriv => exact .inr (.inl ⟨hi, hpriv, rfl⟩)
  | returnFromS hi hpriv => exact .inr (.inr ⟨hi, hpriv, rfl⟩)

/-- An instruction in U mode leaves the registers of the higher modes, or traps (60_exceptions.md R621, R622). -/
theorem Effect.of_user (h : Effect i s t) (hpriv : s.priv = .U) : SystemKept s t ∨ Trapped s t := by
  cases h with
  | retire hu | jump hu | reserve hu | unreserve hu => exact .inl (hu.systemKept.trans (by constructor <;> rfl))
  | trap hu => exact .inr ⟨_, _, _, hu, rfl⟩
  | writeCsr hcheck hu hw =>
    have hwrite := csrWrite_systemKept (userCsr_of_csrCheck hpriv hcheck)
    exact .inl (((hu.systemKept.trans (hwrite _ _)).trans hw.systemKept).trans (by constructor <;> rfl))
  | fetchFence | wait => exact .inl (by constructor <;> rfl)
  | returnFromM _ hM => rw [hpriv] at hM; cases hM
  | returnFromS _ hU => exact absurd hpriv hU

end

/-! ## The obligations -/

/-- Settles O14: only a trap and the two returns reach the mode, among all effects of an instruction. -/
theorem modeChangesOnlyByTrapOrReturn : Obligations.ModeChangesOnlyByTrapOrReturn := by
  intro s t h hne
  have htrap : Trapped s t →
      t.priv = .M ∧ t.mepc = epcValue s.cfg s.pc ∧ t.mstatus.mpp = s.priv ∧ t.pc = s.handler
        ∧ ∃ c : Exc, t.mcause = c.code := by
    rintro ⟨u, c, v, hu, rfl⟩
    obtain ⟨hpc, hmepc, hmstatus⟩ := hu.enterTrap_saves c v
    exact ⟨rfl, hmepc, by rw [hmstatus], hpc, c, rfl⟩
  rcases step_effect h with ⟨code, i, hfetch, hdecode, he⟩ | ⟨-, c, v, rfl⟩
  · rcases he.priv_changed hne with ht | ⟨rfl, hM, hto⟩ | ⟨rfl, hU, hto⟩
    · exact .inl (htrap ht)
    · exact .inr (.inl ⟨code, hfetch, hdecode, hM, hto⟩)
    · exact .inr (.inr ⟨code, hfetch, hdecode, hU, hto⟩)
  · exact .inl (htrap (trapped_enterTrap s c v))

/-- Settles O15: in U mode an instruction is no return and its CSR writes reach no register of a higher mode, so that only a trap
does. -/
theorem userModeCannotTouchHigherModes : Obligations.UserModeCannotTouchHigherModes := by
  intro s t hpriv h
  have hstep : SystemKept s t ∨ Trapped s t := by
    rcases step_effect h with ⟨-, i, -, -, he⟩ | ⟨-, c, v, rfl⟩
    · exact he.of_user hpriv
    · exact .inr (trapped_enterTrap s c v)
  rcases hstep with hk | ⟨u, c, v, hu, rfl⟩
  · rw [hk.mstatus]
    exact ⟨hk.mtvec, hk.mscratch, hk.stvec, hk.sscratch, hk.sepc, hk.scause, hk.stval, rfl, rfl, rfl, rfl, rfl, rfl, rfl,
      .inr ⟨hk.priv.trans hpriv, hk.mepc, hk.mcause, hk.mtval, rfl, rfl, rfl⟩⟩
  · have hk := hu.systemKept
    obtain ⟨hpc, hmepc, hmstatus⟩ := hu.enterTrap_saves c v
    rw [hmstatus, hpriv, enterTrap_mtvec, enterTrap_mscratch, enterTrap_stvec, enterTrap_sscratch, enterTrap_sepc,
      enterTrap_scause, enterTrap_stval]
    exact ⟨hk.mtvec, hk.mscratch, hk.stvec, hk.sscratch, hk.sepc, hk.scause, hk.stval, rfl, rfl, rfl, rfl, rfl, rfl, rfl,
      .inl ⟨rfl, hpc, hmepc, rfl, rfl, rfl⟩⟩

end Sys2Proof.Machine
end

section
/-! Proofs about where instructions raise exceptions (60_exceptions.md R601 to R615, R621, R622): the accesses, the jumps, the CSR
instructions and those of the system. -/

namespace Sys2Proof.Machine

/-! ## Checks that fail -/

section
variable {s : State} {kind : AccessKind} {strict : Bool} {addr : Word} {w : Nat}

/-- A misaligned access is refused where it must be aligned, before its permission is looked at (60_exceptions.md R611). -/
theorem checkAccess_of_misaligned (ha : addr.toNat % w ≠ 0) (hmust : strict = true ∨ s.cfg.misaligned = .trap) :
    checkAccess s.cfg kind strict addr w = .error (.exc kind.misaligned addr) := by
  have hbad : aligned addr w = false := beq_eq_false_iff_ne.2 ha
  rw [checkAccess, hbad]
  rcases hmust with rfl | hmust
  · rfl
  · simp [hmust]

/-- An access that need not be aligned, or is, is refused where one of its bytes is not permitted (60_exceptions.md R611). -/
theorem checkAccess_of_not_mapped (ha : addr.toNat % w = 0 ∨ (strict = false ∧ s.cfg.misaligned = .emulate))
    (hm : ¬Mapped s kind addr w) : checkAccess s.cfg kind strict addr w = .error (.exc kind.accessFault addr) := by
  have hp : permitted s.cfg kind addr w = false := Bool.eq_false_iff.2 (permitted_iff.not.2 hm)
  rw [checkAccess, hp]
  rcases ha with ha | ⟨rfl, ha⟩
  · simp [aligned, ha]
  · simp [ha]

/-- An access that is neither aligned nor emulated is misaligned under MISALIGNED = `trap` (20_memory.md R65). -/
theorem misaligned_of_not_alignedOrEmulated (h : ¬AlignedOrEmulated s addr w) :
    addr.toNat % w ≠ 0 ∧ s.cfg.misaligned = .trap := by
  obtain ⟨ha, he⟩ := not_or.1 h
  cases hmis : s.cfg.misaligned
  · exact ⟨ha, rfl⟩
  · exact absurd hmis he

/-- A load or store that misalignment or permission stops: the exception of its kind (60_exceptions.md R605 to R608). -/
theorem checkAccess_of_unreachable (h : ¬(AlignedOrEmulated s addr w ∧ Mapped s kind addr w)) :
    checkAccess s.cfg kind false addr w
      = .error (.exc (if AlignedOrEmulated s addr w then kind.accessFault else kind.misaligned) addr) := by
  split
  · next ha => exact checkAccess_of_not_mapped (ha.imp_right fun he => ⟨rfl, he⟩) fun hm => h ⟨ha, hm⟩
  · next ha =>
    obtain ⟨hmis, htrap⟩ := misaligned_of_not_alignedOrEmulated ha
    exact checkAccess_of_misaligned hmis (.inr htrap)

end

/-! ## Accesses that trap -/

/-- An instruction is a store of w bytes at an address, of an integer register or, behind the gate of FS, of a floating-point
register; the flag says which. -/
inductive IsStore (s : State) (i : Instr) (addr : Word) (w : Nat) : Bool → Prop where
  | integer {n : Nat} {v : Word} (h : exec i s = s.storeX n addr w v) : IsStore s i addr w false
  | float {n : Nat} {rs2 : RegIdx} {fmt : FloatFormat} (h : exec i s = s.fpStore i n fmt rs2 addr) (hw : fmt.width / 8 = w) :
      IsStore s i addr w true

/-- An instruction is a load or a store; the first flag is set for a store. -/
inductive IsAccess (s : State) (i : Instr) (addr : Word) (w : Nat) (fp : Bool) : Bool → Prop where
  | load (h : IsLoad s i addr w fp) : IsAccess s i addr w fp false
  | store (h : IsStore s i addr w fp) : IsAccess s i addr w fp true

section
variable {s : State} {i : Instr} {addr : Word} {w : Nat} {fp stores : Bool} {c : Exc} {v : Word}

/-- A load whose check fails takes the exception of the check (60_exceptions.md R605, R606). -/
theorem IsLoad.traps (h : IsLoad s i addr w fp) (hon : fp = true → FpOn s)
    (hcheck : checkAccess s.cfg .load false addr w = .error (.exc c v)) : Traps s (exec i s) c v := by
  cases h with
  | integer h =>
    rw [h, State.loadX, State.load, hcheck]
    exact takeTrap_traps s c v
  | float h hw =>
    rw [h, State.fpLoad, State.fpGate, fpOff_of_fpOn (hon rfl), hw, State.load, hcheck]
    exact takeTrap_traps s c v

/-- A store whose check fails takes the exception of the check (60_exceptions.md R607, R608). -/
theorem IsStore.traps (h : IsStore s i addr w fp) (hon : fp = true → FpOn s)
    (hcheck : checkAccess s.cfg .store false addr w = .error (.exc c v)) : Traps s (exec i s) c v := by
  cases h with
  | integer h =>
    rw [h, State.storeX, State.store, hcheck]
    exact takeTrap_traps s c v
  | float h hw =>
    rw [h, State.fpStore, State.fpGate, fpOff_of_fpOn (hon rfl), hw, State.storeX, State.store, hcheck]
    exact takeTrap_traps s c v

/-- A load or store that cannot reach its bytes traps with its address (60_exceptions.md R605 to R608, R611). -/
theorem IsAccess.traps (h : IsAccess s i addr w fp stores) (hon : fp = true → FpOn s) :
    (¬AlignedOrEmulated s addr w →
      Traps s (exec i s) (if stores then .storeAddrMisaligned else .loadAddrMisaligned) addr)
    ∧ (AlignedOrEmulated s addr w → ¬Mapped s (if stores then .store else .load) addr w →
        Traps s (exec i s) (if stores then .storeAccessFault else .loadAccessFault) addr) := by
  refine ⟨fun ha => ?_, fun ha hm => ?_⟩
  · have hcheck (kind : AccessKind) := checkAccess_of_unreachable (s := s) (kind := kind) fun hr => ha hr.1
    simp only [if_neg ha] at hcheck
    cases h with
    | load h => exact h.traps hon (hcheck .load)
    | store h => exact h.traps hon (hcheck .store)
  · have hcheck (kind : AccessKind) := checkAccess_of_unreachable (s := s) (kind := kind) (addr := addr) (w := w)
    simp only [if_pos ha] at hcheck
    cases h with
    | load h => exact h.traps hon (hcheck .load fun hr => hm hr.2)
    | store h => exact h.traps hon (hcheck .store fun hr => hm hr.2)

/-- An lr whose check fails takes its exception (43_a_atomic.md R250). -/
theorem loadReserved_traps {rd : RegIdx} (hcheck : checkAccess s.cfg .load true addr w = .error (.exc c v)) :
    Traps s (s.loadReserved rd addr w) c v := by
  rw [State.loadReserved, hcheck]
  exact takeTrap_traps s c v

/-- An sc whose check fails takes its exception, whether or not its reservation is there (43_a_atomic.md R250, R251). -/
theorem storeConditional_traps {rd : RegIdx} {u : Word} (hcheck : checkAccess s.cfg .atomic true addr w = .error (.exc c v)) :
    Traps s (s.storeConditional rd addr w u) c v := by
  rw [State.storeConditional, hcheck]
  exact takeTrap_traps s c v

/-- An atomic memory operation whose check fails takes its exception (43_a_atomic.md R250). -/
theorem amo_traps {rd : RegIdx} {op : Word → Word} (hcheck : checkAccess s.cfg .atomic true addr w = .error (.exc c v)) :
    Traps s (s.amo rd addr w op) c v := by
  rw [State.amo, hcheck]
  exact takeTrap_traps s c v

end

/-- Settles O25: each row is an access of its address and width, and traps as the check of the access fails. -/
theorem unreachableAccessesTrap : Obligations.UnreachableAccessesTrap := by
  refine ⟨?_, ?_, ?_⟩
  · intro rd rs1 rs2 cr1 cr2 imm u6 u5 u2 u1 s row hrow addr w
    have haccess : IsAccess s row.1 addr w row.2.2.2.2 row.2.1 := by
      fin_cases hrow <;> constructor <;> constructor <;> rfl
    exact haccess.traps
  · intro row hrow rd rs1 aq rl s addr
    refine ⟨fun ha => ?_, fun ha hm => ?_⟩
    · have hcheck := checkAccess_of_misaligned (s := s) (kind := .load) ha (.inl rfl)
      fin_cases hrow <;> exact loadReserved_traps hcheck
    · have hcheck := checkAccess_of_not_mapped (strict := true) (.inl ha) hm
      fin_cases hrow <;> exact loadReserved_traps hcheck
  · intro row hrow rd rs1 rs2 aq rl s addr
    have hexec {c : Exc} {v : Word} (hcheck : checkAccess s.cfg .atomic true addr row.2 = .error (.exc c v)) :
        Traps s (exec (row.1 rd rs1 rs2 aq rl) s) c v := by
      fin_cases hrow
      -- sc.w and the nine operations on words, then sc.d and the nine on doublewords.
      · exact storeConditional_traps hcheck
      iterate 9 exact amo_traps hcheck
      · exact storeConditional_traps hcheck
      iterate 9 exact amo_traps hcheck
    exact ⟨fun ha => hexec (checkAccess_of_misaligned ha (.inl rfl)),
      fun ha hm => hexec (checkAccess_of_not_mapped (.inl ha) hm)⟩

/-! ## Jumps that trap -/

section
variable {s : State} {n : Nat} {rd : RegIdx} {target : Word}

/-- A jump to an address that is no instruction address does not happen (60_exceptions.md R601). -/
theorem jumpTo_of_misaligned (h : target.toNat % s.cfg.ext.ialignBytes ≠ 0) :
    s.jumpTo target = .error (.exc .instrAddrMisaligned target) :=
  if_neg h

/-- A linking jump to an address that is no instruction address writes no link (60_exceptions.md R601). -/
theorem jumpLink_traps (h : target.toNat % s.cfg.ext.ialignBytes ≠ 0) :
    Traps s (s.jumpLink n rd target) .instrAddrMisaligned target := by
  rw [State.jumpLink, jumpTo_of_misaligned h]
  exact takeTrap_traps s _ _

/-- A taken branch to an address that is no instruction address (60_exceptions.md R601). -/
theorem branch_traps {cond : Bool} {m : Nat} {imm : BitVec m}
    (h : (wrap s (s.pc.toNat + imm.toInt * 2)).toNat % s.cfg.ext.ialignBytes ≠ 0) (hcond : cond = true) :
    Traps s (s.branch n cond (sext s.xlen (imm ++ 0#1))) .instrAddrMisaligned (wrap s (s.pc.toNat + imm.toInt * 2)) := by
  rw [← relativeTarget_eq] at h ⊢
  rw [State.branch, if_pos hcond]
  exact (jumpTo_of_misaligned h).symm ▸ takeTrap_traps s _ _

end

/-- Settles O28: the target of each jump and branch is the one of the statement, and fails its check. -/
theorem misalignedTargetsTrap : Obligations.MisalignedTargetsTrap := by
  intro rd rs1 rs2 imm20 imm12 s
  have hequal := test2_registers eqTest_decides s rs1 rs2
  have hsigned := test2_registers ltSigned_decides s rs1 rs2
  have hunsigned := test2_registers ltUnsigned_decides s rs1 rs2
  refine ⟨fun h => ?_, fun h => ?_,
    fun h => ⟨fun hc => ?_, fun hc => ?_, fun hc => ?_, fun hc => ?_, fun hc => ?_, fun hc => ?_⟩⟩
  · show Traps s (execJal rd imm20 s) _ _
    rw [execJal, relativeTarget_eq]
    exact jumpLink_traps h
  · show Traps s (execJalr rd rs1 imm12 s) _ _
    rw [execJalr, immediateTarget_eq]
    exact jumpLink_traps h
  · exact branch_traps h (by simp [hequal, hc])
  · exact branch_traps h (by simp [hequal, hc])
  · exact branch_traps h (by simp [hsigned, hc])
  · exact branch_traps h (by simpa [hsigned] using hc)
  · exact branch_traps h (by simp [hunsigned, hc])
  · exact branch_traps h (by simpa [hunsigned] using hc)

/-! ## CSR instructions that do not complete -/

section
variable {s : State} {i : Instr} {addr : CsrAddr} {writes : Bool}

/-- The two first checks fail: too low a mode, or the write of a read-only address (60_exceptions.md R622). -/
theorem csrCheck_of_address
    (h : (Priv.code s.priv).toNat < addr.toNat / 256 % 4 ∨ (addr.toNat / 1024 = 3 ∧ writes = true)) :
    s.csrCheck i addr writes = .error (illegal i) := by
  rw [State.csrCheck, BitVec.extractLsb'_toNat, Nat.shiftRight_eq_div_pow]
  rcases h with hbelow | ⟨hro, rfl⟩
  · exact if_pos hbelow
  · have hbits : addr.extractLsb' 10 2 = 0b11#2 := by
      apply BitVec.eq_of_toNat_eq
      rw [BitVec.extractLsb'_toNat, Nat.shiftRight_eq_div_pow]
      exact congrArg (· % 4) hro
    rw [if_pos (show (decide _ && true) = true by simp [hbits]), ite_self]

/-- An address that passes the two first checks and is not modelled (60_exceptions.md R622). -/
theorem csrCheck_of_unmodelled (hmode : ¬(Priv.code s.priv).toNat < addr.toNat / 256 % 4)
    (hro : ¬(addr.toNat / 1024 = 3 ∧ writes = true)) (hnone : csrOf addr = none) :
    s.csrCheck i addr writes = .error (.refuse (.unmodelledCsr addr)) := by
  have hbits : (decide (addr.extractLsb' 10 2 = 0b11#2) && writes) ≠ true := by
    rw [ne_eq, Bool.and_eq_true, decide_eq_true_iff]
    rintro ⟨hb, hw⟩
    refine hro ⟨?_, hw⟩
    have hlt := addr.isLt
    have hthree := congrArg BitVec.toNat hb
    rw [BitVec.extractLsb'_toNat, Nat.shiftRight_eq_div_pow] at hthree
    simp only [BitVec.toNat_ofNat] at hthree
    omega
  rw [State.csrCheck, BitVec.extractLsb'_toNat, Nat.shiftRight_eq_div_pow]
  rw [if_neg hmode, if_neg hbits, hnone]

/-- A modelled CSR whose unit is absent or off is illegal, whatever the checks before say (60_exceptions.md R622). -/
theorem csrCheck_of_unit {c : Csr} (hc : csrOf addr = some c)
    (h : c.present s.cfg.ext = false ∨ (c.isFp = true ∧ ¬FpOn s)) : s.csrCheck i addr writes = .error (illegal i) := by
  cases hcheck : s.csrCheck i addr writes with
  | error e =>
    rcases csrCheck_error hcheck with rfl | ⟨hnone, -⟩
    · rfl
    · rw [hnone] at hc
      cases hc
  | ok c' =>
    obtain ⟨hof, hpresent, -, hunit⟩ := csrCheck_ok hcheck
    obtain rfl : c = c' := Option.some.inj (hc.symm.trans hof)
    rcases h with habsent | ⟨hfp, hoff⟩
    · rw [habsent] at hpresent
      cases hpresent
    · rw [hfp, fpOff_of_not_fpOn hoff] at hunit
      cases hunit

/-- A CSR instruction whose check fails stops as the check says (60_exceptions.md R622). -/
theorem csrAccess_of_error {e : Stop} {rd : RegIdx} {reads : Bool} {newValue : Word → Word}
    (h : s.csrCheck i addr writes = .error e) : s.csrAccess i rd addr reads writes newValue = s.stop e := by
  rw [State.csrAccess, h]

end

/-- Settles O36: each row is a CSR access that writes when the row says so, and stops as its check fails. -/
theorem csrInstructionsStop : Obligations.CsrInstructionsStop := by
  intro rd rs1 uimm addr s row hrow
  have haccess : ∃ reads newValue, exec row.1 s = s.csrAccess row.1 rd addr reads row.2 newValue := by
    fin_cases hrow
    · exact ⟨_, _, show execCsrrw rd rs1 addr s = _ from rfl⟩
    · exact ⟨_, _, show execCsrrs rd rs1 addr s = _ from rfl⟩
    · exact ⟨_, _, show execCsrrc rd rs1 addr s = _ from rfl⟩
    · exact ⟨_, _, show execCsrrwi rd addr uimm s = _ from rfl⟩
    · exact ⟨_, _, show execCsrrsi rd addr uimm s = _ from rfl⟩
    · exact ⟨_, _, show execCsrrci rd addr uimm s = _ from rfl⟩
  obtain ⟨reads, newValue, haccess⟩ := haccess
  have hstop {e : Stop} (h : s.csrCheck row.1 addr row.2 = .error e) : exec row.1 s = s.stop e :=
    haccess.trans (csrAccess_of_error h)
  have htraps (h : s.csrCheck row.1 addr row.2 = .error (illegal row.1)) :
      Traps s (exec row.1 s) .illegalInstruction row.1.bits := by
    rw [hstop h]
    exact takeTrap_traps s _ _
  exact ⟨fun h => htraps (csrCheck_of_address h), fun hmode hro hnone => hstop (csrCheck_of_unmodelled hmode hro hnone),
    fun c _ hc h => htraps (csrCheck_of_unit hc h)⟩

/-! ## Steps that stop before an instruction -/

/-- Settles O2: the step without HALT is its fetch and its decoding, and HALT comes before both. -/
theorem stepStopsBeforeAnInstruction : Obligations.StepStopsBeforeAnInstruction := by
  intro s
  refine ⟨fun code hrunning hfetch hdecode => ?_, fun hmachine hhalt => ?_, fun hrunning hm => ?_⟩
  · rw [step_running hrunning, hfetch]
    simp only [hdecode]
    exact takeTrap_traps s _ _
  · exact if_pos (by rw [hmachine, hhalt]; rfl)
  · rw [step_running hrunning, State.fetch, fetchRead_of_not_mapped hm]
    exact takeTrap_traps s _ _

/-! ## The system instructions -/

/-- An instruction of 4 bytes has no word of 2 (30_encoding.md R101). -/
theorem decode_half_size {xlen : Xlen} {ext : Ext} {w : BitVec 16} {i : Instr} (h : decode xlen ext (.half w) = some i) :
    i.size = 2 := by
  obtain ⟨-, hencode⟩ := encodeInvertsDecode xlen ext _ i h
  rw [Instr.size, hencode]
  rfl

/-- Settles O31: ecall is the taking of the exception that the mode chooses. -/
theorem environmentCallByMode : Obligations.EnvironmentCallByMode := by
  refine ⟨fun s => ?_, rfl, rfl, rfl, fun xlen ext w h => nomatch decode_half_size h⟩
  have hcall : exec .ecall s = execEcall s := rfl
  rw [hcall, execEcall]
  refine ⟨fun hp => ?_, fun hp => ?_, fun hp => ?_⟩ <;> rw [hp] <;> exact takeTrap_traps s _ _

/-- The word of sfence.vma (40_base_compute_system.md R184). -/
theorem sfenceVma_bits (rs1 rs2 : RegIdx) :
    (Instr.sfenceVma rs1 rs2).bits = BitVec.ofNat 64 (0x12000073 + rs1.toNat * 2 ^ 15 + rs2.toNat * 2 ^ 20) := by
  have h1 := rs1.isLt
  have h2 := rs2.isLt
  apply BitVec.eq_of_toNat_eq
  show (BitVec.setWidth 64 (0b0001001#7 ++ rs2 ++ rs1 ++ 0b000000001110011#15)).toNat = _
  simp only [BitVec.toNat_setWidth, BitVec.toNat_append, BitVec.toNat_ofNat]
  rw [← Nat.shiftLeft_add_eq_or_of_lt h2, ← Nat.shiftLeft_add_eq_or_of_lt h1, ← Nat.shiftLeft_add_eq_or_of_lt (by decide)]
  simp only [Nat.shiftLeft_eq]
  omega

/-- An instruction behind a condition that holds is illegal (60_exceptions.md R603). -/
theorem gated_traps {s : State} {i : Instr} {gate : Bool} {r : Result} {bits : Word} (hgate : gate = true) (hbits : i.bits = bits) :
    Traps s (if gate then s.stop (illegal i) else r) .illegalInstruction bits := by
  rw [if_pos hgate, ← hbits]
  exact takeTrap_traps s _ _

/-- Settles O34: each instruction stands behind the condition that the statement gives. -/
theorem privilegedInstructionsAreIllegalBelow : Obligations.PrivilegedInstructionsAreIllegalBelow := by
  intro s rs1 rs2
  refine ⟨fun h => ?_, fun h => ?_, fun h => ?_, fun h => ?_⟩
  · exact gated_traps (by simpa using h) rfl
  · exact gated_traps (by simpa using h) rfl
  · exact gated_traps (by simpa using h) (sfenceVma_bits rs1 rs2)
  · exact gated_traps (by simpa using h) rfl

end Sys2Proof.Machine
end

section
/-! Proofs about breakpoint (60_exceptions.md R604): that no instruction but ebreak and c.ebreak raises it, in one lemma over all
instructions (`exec_breakpointFree`). -/

namespace Sys2Proof.Machine

/-! ## Stops that are no breakpoint -/

/-- The reasons an instruction other than ebreak and c.ebreak may stop for (60_exceptions.md R601 to R609, R628). -/
inductive Stop.Other : Stop → Prop where
  | exc {c : Exc} {v : Word} (h : c ≠ .breakpoint) : Stop.Other (.exc c v)
  | readOfUnspecified {a : Nat} : Stop.Other (.fault (.readOfUnspecified a))
  | staleFetch {a : Nat} : Stop.Other (.fault (.staleFetch a))
  | refuse {r : Refusal} : Stop.Other (.refuse r)

/-- A computation that fails, if it does, for one of those reasons. -/
def FailsOther {α : Type} (m : Except Stop α) : Prop := ∀ e, m = .error e → e.Other

theorem illegal_other (i : Instr) : (illegal i).Other := .exc nofun

theorem checkAccess_failsOther (cfg : Config) (kind : AccessKind) (strict : Bool) (addr : Word) (n : Nat) :
    FailsOther (checkAccess cfg kind strict addr n) := by
  intro e he
  rcases checkAccess_error he with rfl | rfl <;> cases kind <;> exact .exc nofun

theorem peek_failsOther (s : State) (addr : Word) (n : Nat) : FailsOther (s.peek addr n) := by
  intro e he
  unfold State.peek at he
  split at he
  · next e' hread =>
    cases he
    obtain ⟨a, -, -, rfl⟩ := readBytes_error hread
    exact .readOfUnspecified
  · cases he

theorem load_failsOther (s : State) (addr : Word) (n : Nat) : FailsOther (s.load addr n) := by
  intro e he
  unfold State.load at he
  split at he
  · next e' hcheck =>
    cases he
    exact checkAccess_failsOther _ _ _ _ _ _ hcheck
  · exact peek_failsOther s addr n e he

theorem store_failsOther (s : State) (addr : Word) (n : Nat) (v : Word) : FailsOther (s.store addr n v) := by
  intro e he
  rcases store_error he with rfl | rfl <;> exact .exc nofun

theorem jumpTo_failsOther (s : State) (target : Word) : FailsOther (s.jumpTo target) := by
  intro e he
  rw [jumpTo_error he]
  exact .exc nofun

theorem fetchRead_failsOther (s : State) (addr : Word) (n : Nat) : FailsOther (s.fetchRead addr n) := by
  intro e he
  unfold State.fetchRead at he
  split at he
  · cases he
    exact .exc nofun
  · split at he
    · cases he
      exact .staleFetch
    · exact peek_failsOther s addr n e he

theorem csrCheck_failsOther (s : State) (i : Instr) (addr : CsrAddr) (writes : Bool) : FailsOther (s.csrCheck i addr writes) := by
  intro e he
  rcases csrCheck_error he with rfl | ⟨-, rfl⟩
  · exact illegal_other i
  · exact .refuse

/-- The stores of a push stop as stores do (49_zc_code_size.md R553). -/
theorem pushAll_other (l : List RegIdx) (addr : Word) (s : State) : ∀ e, (pushAll l addr s).2 = some e → e.Other := by
  induction l generalizing addr s with
  | nil => simp [pushAll]
  | cons r rest ih =>
    intro e he
    unfold pushAll at he
    split at he
    · next e' hstore =>
      cases he
      exact store_failsOther _ _ _ _ _ hstore
    · exact ih _ _ e he

/-- The loads of a pop stop as loads do (49_zc_code_size.md R553). -/
theorem popAll_other (l : List RegIdx) (addr : Word) (s : State) : ∀ e, (popAll l addr s).2 = some e → e.Other := by
  induction l generalizing addr s with
  | nil => simp [popAll]
  | cons r rest ih =>
    intro e he
    unfold popAll at he
    split at he
    · next e' hload =>
      cases he
      exact load_failsOther _ _ _ _ hload
    · exact ih _ _ e he

/-! ## Outcomes that are no breakpoint -/

/-- The six CSR instructions, which may write mcause (60_exceptions.md R622). -/
def IsCsrInstr (i : Instr) : Prop :=
  ∃ rd rs1 csr uimm, i ∈ [Instr.csrrw rd rs1 csr, .csrrs rd rs1 csr, .csrrc rd rs1 csr, .csrrwi rd csr uimm,
    .csrrsi rd csr uimm, .csrrci rd csr uimm]

/-- An outcome without a breakpoint: the instruction completes and leaves mcause, unless it is a CSR instruction, or it stops for
another reason, on the state it has reached. -/
inductive BreakpointFree (i : Instr) (s : State) : Result → Prop where
  | next {t : State} (h : t.mcause = s.mcause ∨ IsCsrInstr i) : BreakpointFree i s (.next t)
  | stop {u : State} {e : Stop} (h : e.Other) : BreakpointFree i s (u.stop e)

section
variable {i : Instr} {s : State} {n : Nat} {rd : RegIdx}

/-- The causes have different codes (60_exceptions.md R600). -/
theorem code_ne_breakpoint {c : Exc} (h : c ≠ .breakpoint) : c.code ≠ Exc.breakpoint.code := by
  cases c with
  | breakpoint => exact absurd rfl h
  | instrAddrMisaligned | instrAccessFault | illegalInstruction | loadAddrMisaligned | loadAccessFault | storeAddrMisaligned
  | storeAccessFault | ecallU | ecallS | ecallM => decide

/-- Such an outcome does not end the run with a breakpoint. -/
theorem BreakpointFree.not_fault {r : Result} (h : BreakpointFree i s r) (epc tval : Word) (u : State) :
    r ≠ .fault (.trap .breakpoint epc tval u) := by
  cases h with
  | next => nofun
  | stop he =>
    intro hf
    rcases stop_fault.1 hf with rfl | ⟨c, v, rfl, -, heq⟩
    · cases he
    · cases heq
      cases he with
      | exc hc => exact hc rfl

/-- Such an outcome puts no breakpoint into mcause, unless it is of a CSR instruction. -/
theorem BreakpointFree.mcause {t : State} (h : BreakpointFree i s (.next t)) (hs : s.mcause ≠ Exc.breakpoint.code)
    (ht : t.mcause = Exc.breakpoint.code) : IsCsrInstr i := by
  generalize hr : Host.Outcome.next t = r at h
  cases h with
  | next h =>
    cases hr
    exact h.resolve_left fun hkept => hs (hkept.symm.trans ht)
  | stop he =>
    obtain ⟨c, v, rfl, -, rfl⟩ := stop_next.1 hr.symm
    cases he with
    | exc hc => exact absurd ht (code_ne_breakpoint hc)

/-! The shared operations, one lemma each. -/

theorem Written.breakpointFree {u t : State} (hu : Written s u) (ht : t.mcause = u.mcause) : BreakpointFree i s (.next t) :=
  .next (.inl (ht.trans hu.systemKept.mcause))

theorem Retires.breakpointFree {r : Result} (h : Retires i s r) : BreakpointFree i s r := by
  obtain ⟨u, hu, rfl⟩ := h
  exact hu.breakpointFree rfl

theorem conclude_breakpointFree {m : Except Stop State} (hok : ∀ t, m = .ok t → BreakpointFree i s (.next t))
    (hfails : FailsOther m) :
    BreakpointFree i s (s.conclude m) := by
  cases m with
  | ok t => exact hok t rfl
  | error e => exact .stop (hfails e rfl)

theorem loadX_breakpointFree {addr : Word} {w : Nat} {ext : Word → Word} (hn : i.size = n) :
    BreakpointFree i s (s.loadX n rd addr w ext) := by
  unfold State.loadX
  split
  · next e he => exact .stop (load_failsOther _ _ _ _ he)
  · exact (retires_writeX hn).breakpointFree

theorem storeX_breakpointFree {addr : Word} {w : Nat} {v : Word} : BreakpointFree i s (s.storeX n addr w v) := by
  unfold State.storeX
  split
  · next e he => exact .stop (store_failsOther _ _ _ _ _ he)
  · next t ht =>
    obtain ⟨-, rfl⟩ := store_ok.1 ht
    exact (Written.refl.poke addr w v).breakpointFree rfl

theorem jumpLink_breakpointFree {target : Word} : BreakpointFree i s (s.jumpLink n rd target) := by
  unfold State.jumpLink
  split
  · next e he => exact .stop (jumpTo_failsOther _ _ _ he)
  · next t ht =>
    obtain ⟨-, rfl⟩ := jumpTo_ok.1 ht
    exact .next (.inl (setX_mcause _ _ _))

theorem branch_breakpointFree {cond : Bool} {offset : Word} : BreakpointFree i s (s.branch n cond offset) := by
  unfold State.branch
  split
  · refine conclude_breakpointFree (fun t ht => ?_) (jumpTo_failsOther _ _)
    obtain ⟨-, rfl⟩ := jumpTo_ok.1 ht
    exact Written.refl.breakpointFree rfl
  · exact Written.refl.breakpointFree rfl

theorem gate_breakpointFree {j : Instr} {gate : Prop} [Decidable gate] {r : Result} (hr : BreakpointFree i s r) :
    BreakpointFree i s (if gate then s.stop (illegal j) else r) := by
  split
  · exact .stop (illegal_other j)
  · exact hr

theorem fpGate_breakpointFree {j : Instr} {body : Result} (hbody : BreakpointFree i s body) :
    BreakpointFree i s (s.fpGate j body) :=
  gate_breakpointFree hbody

theorem fpRounded_breakpointFree {j : Instr} {rm : BitVec 3} {body : RoundingMode → Result}
    (hbody : ∀ mode, Retires i s (body mode)) : BreakpointFree i s (s.fpRounded j rm body) := by
  refine fpGate_breakpointFree ?_
  split
  · exact .stop (illegal_other j)
  · next mode _ => exact (hbody mode).breakpointFree

theorem fpLoad_breakpointFree {j : Instr} {fmt : FloatFormat} {addr : Word} (hn : i.size = n) :
    BreakpointFree i s (s.fpLoad j n fmt rd addr) := by
  refine fpGate_breakpointFree ?_
  split
  · next e he => exact .stop (load_failsOther _ _ _ _ he)
  · exact (retires_writeRaw hn).breakpointFree

theorem fpStore_breakpointFree {j : Instr} {fmt : FloatFormat} {rs2 : RegIdx} {addr : Word} :
    BreakpointFree i s (s.fpStore j n fmt rs2 addr) :=
  fpGate_breakpointFree storeX_breakpointFree

theorem loadReserved_breakpointFree {addr : Word} : BreakpointFree i s (s.loadReserved rd addr n) := by
  unfold State.loadReserved
  split
  · next e he => exact .stop (checkAccess_failsOther _ _ _ _ _ _ he)
  · split
    · next e he => exact .stop (peek_failsOther _ _ _ _ he)
    · exact (Written.refl.setX rd _).breakpointFree rfl

theorem storeConditional_breakpointFree {addr v : Word} : BreakpointFree i s (s.storeConditional rd addr n v) := by
  have hd := written_scDrawn s addr n
  unfold State.storeConditional
  split
  · next e he => exact .stop (checkAccess_failsOther _ _ _ _ _ _ he)
  · dsimp only
    split
    · exact ((hd.poke addr n v).setX rd _).breakpointFree rfl
    · exact (hd.setX rd _).breakpointFree rfl

theorem amo_breakpointFree {addr : Word} {op : Word → Word} : BreakpointFree i s (s.amo rd addr n op) := by
  unfold State.amo
  split
  · next e he => exact .stop (checkAccess_failsOther _ _ _ _ _ _ he)
  · split
    · next e he => exact .stop (peek_failsOther _ _ _ _ he)
    · next v _ => exact ((Written.refl.poke addr n (op v)).setX rd _).breakpointFree rfl

theorem csrAccess_breakpointFree {j : Instr} {addr : CsrAddr} {reads writes : Bool} {newValue : Word → Word} (hi : IsCsrInstr i) :
    BreakpointFree i s (s.csrAccess j rd addr reads writes newValue) := by
  unfold State.csrAccess
  split
  · next e he => exact .stop (csrCheck_failsOther _ _ _ _ _ he)
  · exact .next (.inr hi)

theorem finishSequence_breakpointFree {p : State × Option Stop} {final : State → State} (hp : ∀ e, p.2 = some e → e.Other)
    (hfinal : (final p.1).mcause = s.mcause) : BreakpointFree i s (finishSequence p final) := by
  unfold finishSequence
  split
  · next e he => exact .stop (hp e he)
  · exact .next (.inl hfinal)

theorem tableJump_breakpointFree {j : Instr} {index : BitVec 8} {link : State → State} (hlink : (link s).mcause = s.mcause) :
    BreakpointFree i s (s.tableJump j index link) := by
  refine gate_breakpointFree ?_
  split
  · next e he => exact .stop (fetchRead_failsOther _ _ _ _ he)
  · exact .next (.inl hlink)

theorem next_ite_breakpointFree {cond : Bool} {t u : State} (ht : t.mcause = s.mcause) (hu : u.mcause = s.mcause) :
    BreakpointFree i s (.next (if cond then t else u)) := by
  cases cond
  · exact .next (.inl hu)
  · exact .next (.inl ht)

/-! The Zcmp sequences. -/

theorem execCmPush_breakpointFree (rlist : BitVec 4) (spimm : BitVec 2) : BreakpointFree i s (execCmPush rlist spimm s) :=
  gate_breakpointFree
    (finishSequence_breakpointFree (pushAll_other _ _ _) ((setX_mcause _ _ _).trans (written_pushAll _ _ _).systemKept.mcause))

/-- A pop leaves mcause when its final section does. -/
theorem pop_breakpointFree {j : Instr} {rlist : BitVec 4} {addr : Word} {final : State → State}
    (hfinal : ∀ t, (final t).mcause = t.mcause) :
    BreakpointFree i s
      (if rlist.toNat < 4 then s.stop (illegal j) else finishSequence (popAll (regList rlist) addr s) final) :=
  gate_breakpointFree
    (finishSequence_breakpointFree (popAll_other _ _ _) ((hfinal _).trans (written_popAll _ _ _).systemKept.mcause))

end

/-! ## Every instruction -/

/-- No instruction but ebreak and c.ebreak raises breakpoint (60_exceptions.md R604). -/
theorem exec_breakpointFree {i : Instr} (s : State) (hebreak : i ≠ .ebreak) (hcebreak : i ≠ .cEbreak) :
    BreakpointFree i s (exec i s) := by
  cases i with
  | fence | cNop => exact (retires_advance rfl).breakpointFree
  | cmMva01s => exact (retires_moves rfl).breakpointFree
  -- Loads and stores.
  | lb | lh | lw | lbu | lhu | lwu | ld | cLw | cLd | cLwsp | cLdsp | cLbu | cLhu | cLh => exact loadX_breakpointFree rfl
  | sb | sh | sw | sd | cSw | cSd | cSwsp | cSdsp | cSb | cSh => exact storeX_breakpointFree
  -- Jumps and branches.
  | jal | jalr => exact jumpLink_breakpointFree
  | beq | bne | blt | bge | bltu | bgeu => exact branch_breakpointFree
  | cBeqz | cBnez => exact next_ite_breakpointFree rfl rfl
  | cJ | cJr => exact .next (.inl rfl)
  | cJal | cJalr => exact .next (.inl (setX_mcause s ra (effAddr s.xlen s.pc 2#64)))
  -- Floating point, behind the gate of FS and, where they round, of the rounding mode.
  | fmaddS | fmsubS | fnmsubS | fnmaddS | fmaddD | fmsubD | fnmsubD | fnmaddD | fmaddH | fmsubH | fnmsubH | fnmaddH |
      faddS | fsubS | fmulS | fdivS | faddD | fsubD | fmulD | fdivD | faddH | fsubH | fmulH | fdivH | fsqrtS | fsqrtD
      | fsqrtH | fcvtSW | fcvtSWu | fcvtSL | fcvtSLu | fcvtDW | fcvtDWu | fcvtDL | fcvtDLu | fcvtHW | fcvtHWu | fcvtHL
      | fcvtHLu | fcvtSD | fcvtDS | fcvtSH | fcvtHS | fcvtDH | fcvtHD =>
    exact fpRounded_breakpointFree fun _ => retires_writeFp rfl
  | fcvtWS | fcvtWuS | fcvtWD | fcvtWuD | fcvtWH | fcvtWuH | fcvtLS | fcvtLuS | fcvtLD | fcvtLuD | fcvtLH | fcvtLuH =>
    exact fpRounded_breakpointFree fun _ => retires_writeInt rfl
  | fminS | fmaxS | fminD | fmaxD | fminH | fmaxH => exact fpGate_breakpointFree (retires_writeFp rfl).breakpointFree
  | feqS | fltS | fleS | feqD | fltD | fleD | feqH | fltH | fleH =>
    exact fpGate_breakpointFree (retires_writeInt rfl).breakpointFree
  | fsgnjS | fsgnjnS | fsgnjxS | fsgnjD | fsgnjnD | fsgnjxD | fsgnjH | fsgnjnH | fsgnjxH | fmvWX | fmvDX | fmvHX =>
    exact fpGate_breakpointFree (retires_writeRaw rfl).breakpointFree
  | fmvXW | fmvXD | fmvXH | fclassS | fclassD | fclassH =>
    exact fpGate_breakpointFree (retires_writeX rfl).breakpointFree
  | flw | fld | flh | cFld | cFlw | cFldsp | cFlwsp => exact fpLoad_breakpointFree rfl
  | fsw | fsd | fsh | cFsd | cFsw | cFsdsp | cFswsp => exact fpStore_breakpointFree
  -- Atomics.
  | lrW | lrD => exact loadReserved_breakpointFree
  | scW | scD => exact storeConditional_breakpointFree
  | amoswapW | amoaddW | amoxorW | amoandW | amoorW | amominW | amomaxW | amominuW | amomaxuW | amoswapD | amoaddD |
      amoxorD | amoandD | amoorD | amominD | amomaxD | amominuD | amomaxuD =>
    exact amo_breakpointFree
  -- The CSR instructions.
  | csrrw rd rs1 csr =>
    show BreakpointFree _ s (execCsrrw rd rs1 csr s)
    exact csrAccess_breakpointFree ⟨rd, rs1, csr, 0, by simp⟩
  | csrrs rd rs1 csr =>
    show BreakpointFree _ s (execCsrrs rd rs1 csr s)
    exact csrAccess_breakpointFree ⟨rd, rs1, csr, 0, by simp⟩
  | csrrc rd rs1 csr =>
    show BreakpointFree _ s (execCsrrc rd rs1 csr s)
    exact csrAccess_breakpointFree ⟨rd, rs1, csr, 0, by simp⟩
  | csrrwi rd csr uimm =>
    show BreakpointFree _ s (execCsrrwi rd csr uimm s)
    exact csrAccess_breakpointFree ⟨rd, 0, csr, uimm, by simp⟩
  | csrrsi rd csr uimm =>
    show BreakpointFree _ s (execCsrrsi rd csr uimm s)
    exact csrAccess_breakpointFree ⟨rd, 0, csr, uimm, by simp⟩
  | csrrci rd csr uimm =>
    show BreakpointFree _ s (execCsrrci rd csr uimm s)
    exact csrAccess_breakpointFree ⟨rd, 0, csr, uimm, by simp⟩
  -- The instructions that always take an exception.
  | ecall => exact .stop (e := .exc _ _) (.exc (by cases s.priv <;> nofun))
  | ebreak => exact absurd rfl hebreak
  | cEbreak => exact absurd rfl hcebreak
  | fcvtQH | fcvtHQ => exact .stop (illegal_other _)
  -- The system instructions and the Zcmp and Zcmt sequences.
  | fenceI => exact .next (.inl rfl)
  | sret => exact gate_breakpointFree (.next (.inl (returnFromS_mcause s)))
  | mret => exact gate_breakpointFree (.next (.inl (returnFromM_mcause s)))
  | wfi => exact gate_breakpointFree (next_ite_breakpointFree rfl rfl)
  | sfenceVma => exact gate_breakpointFree (retires_advance rfl).breakpointFree
  | cmPush rlist spimm => exact execCmPush_breakpointFree rlist spimm
  | cmPop | cmPopret | cmPopretz => exact pop_breakpointFree fun t => by simp
  | cmMvsa01 => exact gate_breakpointFree (retires_moves rfl).breakpointFree
  | cmJt index =>
    show BreakpointFree _ s (execCmJt index s)
    exact tableJump_breakpointFree rfl
  | cmJalt index =>
    show BreakpointFree _ s (execCmJalt index s)
    exact tableJump_breakpointFree (setX_mcause s ra _)
  -- Integer computation: one register written.
  | _ => exact (retires_writeX rfl).breakpointFree

/-- Settles O32: ebreak and c.ebreak take the exception, and every other instruction stops for other reasons only. -/
theorem breakpointOnlyFromEbreak : Obligations.BreakpointOnlyFromEbreak := by
  refine ⟨fun s => ⟨takeTrap_traps s _ _, takeTrap_traps s _ _⟩, fun i s u epc tval h => ?_, fun i s t h hs ht => ?_⟩
  · by_contra hi
    obtain ⟨hebreak, hcebreak⟩ := not_or.1 hi
    exact (exec_breakpointFree s hebreak hcebreak).not_fault epc tval u h
  · by_contra hi
    obtain ⟨hebreak, hi⟩ := not_or.1 hi
    obtain ⟨hcebreak, hcsr⟩ := not_or.1 hi
    exact hcsr ((h ▸ exec_breakpointFree s hebreak hcebreak).mcause hs ht)

end Sys2Proof.Machine
end

section
/-! Proofs about the Zcmp and Zcmt extensions (49_zc_code_size.md R551 to R555, R568 to R575): the double moves, the pushes and pops
access by access, and the table jumps. -/

namespace Sys2Proof.Machine

/-! ## Double moves -/

/-- A register reads the same after being cut again (log 2). -/
theorem cut_getX (s : State) (r : RegIdx) : cut s.cfg.xlen (s.getX r) = s.getX r := cut_of_lt (getX_lt s r)

/-- Writing an integer register changes the integer registers alone (10_state.md R20). -/
theorem setX_frame (s : State) (r : RegIdx) (v : Word) : s.setX r v = { s with x := (s.setX r v).x } := by
  unfold State.setX
  split <;> rfl

/-- The s register of a field: x8, x9, then x18 to x23 (49_zc_code_size.md R554). -/
theorem sreg_eq (c : CRegIdx) : sreg c = BitVec.ofNat 5 (if c.toNat < 2 then 8 + c.toNat else 16 + c.toNat) := by
  revert c
  decide

theorem sreg_ne_zero (c : CRegIdx) : sreg c ≠ 0#5 := by
  revert c
  decide

theorem sreg_injective : Function.Injective sreg := by
  unfold Function.Injective
  decide

/-- The outcome copies two registers into two others, both read first, and moves past a 2-byte instruction
(49_zc_code_size.md R554). -/
def CopiesTwo (s : State) (r : Result) (to₁ to₂ from₁ from₂ : RegIdx) : Prop :=
  ∃ t, r = .next t
    ∧ (∀ q, t.getX q = if q = to₁ then s.getX from₁ else if q = to₂ then s.getX from₂ else s.getX q)
    ∧ t.pc = wrap s (s.pc.toNat + 2) ∧ SameMemory s t ∧ t = { s with x := t.x, pc := t.pc }

/-- Two writes of different registers, with values read before both (49_zc_code_size.md R572, R573). -/
theorem copiesTwo_setX (s : State) {to₁ to₂ : RegIdx} (from₁ from₂ : RegIdx) (h₁ : to₁ ≠ 0#5) (h₂ : to₂ ≠ 0#5)
    (hne : to₁ ≠ to₂) :
    CopiesTwo s (.next (((s.setX to₁ (s.getX from₁)).setX to₂ (s.getX from₂)).advance 2)) to₁ to₂ from₁ from₂ := by
  refine ⟨_, rfl, fun q => ?_, ?_, fun a => by simp, ?_⟩
  · rw [getX_advance, getX_setX, getX_setX, setX_cfg, cut_getX, cut_getX]
    by_cases hq : q = to₁
    · simp [hq, h₁, hne]
    · simp [hq, h₂]
  · rw [advance_pc, setX_cfg, setX_pc, setX_cfg, setX_pc]
    exact (wrap_add_ofNat s s.pc 2).symm
  · rw [setX_frame (s.setX to₁ _), setX_frame s]
    rfl

/-- Settles O55: both moves write two different registers, read first; the fields of cm.mvsa01 that name one twice are refused. -/
theorem doubleMovesComplete : Obligations.DoubleMovesComplete := by
  intro r1s r2s s
  simp only [← sreg_eq]
  refine ⟨fun hne => ?_, fun heq => ?_, copiesTwo_setX s _ _ (by decide) (by decide) (by decide)⟩
  · have hexec : exec (.cmMvsa01 r1s r2s) s = _ := if_neg hne
    rw [hexec]
    exact copiesTwo_setX s _ _ (sreg_ne_zero _) (sreg_ne_zero _) (sreg_injective.ne hne)
  · have hexec : exec (.cmMvsa01 r1s r2s) s = _ := if_pos heq
    rw [hexec]
    exact takeTrap_traps s _ _

/-! ## Slots -/

/-- The accesses are made from the end of the list (49_zc_code_size.md R552, R553). -/
theorem regList_eq {rlist : BitVec 4} (h : 4 ≤ rlist.toNat) : regList rlist = (listed rlist).reverse := by
  revert rlist
  decide

/-- The last access of a push or pop is that of x1 (49_zc_code_size.md R552, R553). -/
theorem regList_last {rlist : BitVec 4} (h : 4 ≤ rlist.toNat) :
    ∃ hlast : (listed rlist).reverse.length - 1 < (listed rlist).reverse.length,
      (listed rlist).reverse[(listed rlist).reverse.length - 1] = ra := by
  revert rlist
  decide

/-- A list names no register twice, nor x0 (49_zc_code_size.md R552). -/
theorem listed_nodup (rlist : BitVec 4) : (listed rlist).reverse.Nodup := by
  revert rlist
  decide

theorem zero_notMem_listed (rlist : BitVec 4) : 0#5 ∉ (listed rlist).reverse := by
  revert rlist
  decide

theorem listed_length_le (rlist : BitVec 4) : (listed rlist).reverse.length ≤ 13 := by
  revert rlist
  decide

section
variable {s : State} {base : Word}

/-- The slot below a slot is the next, in every state with the same parameters (49_zc_code_size.md R553). -/
theorem slotBelow_slot {u : State} (h : u.cfg = s.cfg) (base : Word) (j : Nat) :
    slotBelow u (slot s base j) = slot s base (j + 1) := by
  have hsame : slotBelow u = slotBelow s := by
    funext addr
    rw [slotBelow, slotBelow, State.xlen, State.xlen, h]
  rw [hsame, ← slotBelow_iterate s base j, ← slotBelow_iterate s base (j + 1), Function.iterate_succ_apply']

/-- The first slot is right below the base (49_zc_code_size.md R568). -/
theorem slot_zero (s : State) (base : Word) : effAddr s.xlen base (-BitVec.ofNat 64 s.xlen.bytes) = slot s base 0 := by
  rw [slot, Nat.zero_add, Nat.mul_one, State.xlen]

/-- A slot is as far below the base as its number says, modulo the address space (20_memory.md R71). -/
theorem slot_add (s : State) (base : Word) (j : Nat) :
    (slot s base j).toNat + s.cfg.xlen.bytes * (j + 1) ≡ base.toNat [MOD 2 ^ s.cfg.xlen.bits] := by
  unfold slot effAddr
  generalize s.cfg.xlen.bytes * (j + 1) = n
  have hword : (base + -BitVec.ofNat 64 n).toNat + n ≡ base.toNat [MOD 2 ^ 64] := by
    rw [BitVec.toNat_add, BitVec.toNat_neg, BitVec.toNat_ofNat, Nat.ModEq]
    omega
  rw [cut_toNat]
  exact ((Nat.mod_modEq _ _).add_right n).trans (hword.of_dvd (pow_dvd_pow 2 (xlen_bits_le _)))

/-- So is each of its bytes. -/
theorem byteAddr_slot_add (s : State) (base : Word) (j k : Nat) :
    byteAddr s (slot s base j) k + s.cfg.xlen.bytes * (j + 1) ≡ base.toNat + k [MOD 2 ^ s.cfg.xlen.bits] := by
  calc byteAddr s (slot s base j) k + s.cfg.xlen.bytes * (j + 1)
      ≡ (slot s base j).toNat + k + s.cfg.xlen.bytes * (j + 1) [MOD 2 ^ s.cfg.xlen.bits] := (Nat.mod_modEq _ _).add_right _
    _ = (slot s base j).toNat + s.cfg.xlen.bytes * (j + 1) + k := Nat.add_right_comm ..
    _ ≡ base.toNat + k [MOD 2 ^ s.cfg.xlen.bits] := (slot_add s base j).add_right k

/-- Different slots have no byte in common: all of them together are shorter than the address space (49_zc_code_size.md R553). -/
theorem byteAddr_slot_ne {i j k l : Nat} (hi : i < 13) (hj : j < 13) (hk : k < s.cfg.xlen.bytes) (hl : l < s.cfg.xlen.bytes)
    (hne : i ≠ j) : byteAddr s (slot s base i) k ≠ byteAddr s (slot s base j) l := by
  intro heq
  have hspace : 2 ^ 32 ≤ 2 ^ s.cfg.xlen.bits := Nat.pow_le_pow_right (by decide) (by cases s.cfg.xlen <;> decide)
  have hwidth : s.cfg.xlen.bytes = 4 ∨ s.cfg.xlen.bytes = 8 := by cases s.cfg.xlen <;> decide
  have hik := byteAddr_slot_add s base i k
  rw [heq] at hik
  have hcancel : k + s.cfg.xlen.bytes * (j + 1) ≡ l + s.cfg.xlen.bytes * (i + 1) [MOD 2 ^ s.cfg.xlen.bits] := by
    refine Nat.ModEq.add_left_cancel' (byteAddr s (slot s base j) l + base.toNat) ?_
    convert hik.symm.add (byteAddr_slot_add s base j l) using 1 <;> ring
  have hsum : k + s.cfg.xlen.bytes * (j + 1) = l + s.cfg.xlen.bytes * (i + 1) := by
    refine hcancel.eq_of_lt_of_lt ?_ ?_ <;> rcases hwidth with hw | hw <;> rw [hw] at hk hl ⊢ <;> omega
  rcases hwidth with hw | hw <;> rw [hw] at hk hl hsum <;> omega

/-- A slot that a push or pop can reach: no misalignment, and every byte permitted (60_exceptions.md R611). -/
abbrev Reached (s : State) (kind : AccessKind) (addr : Word) : Prop :=
  AlignedOrEmulated s addr s.cfg.xlen.bytes ∧ Mapped s kind addr s.cfg.xlen.bytes

end

/-- An address below another is the word of the difference (20_memory.md R71). -/
theorem wrap_sub_ofNat (s : State) (w : Word) (n : Nat) :
    wrap s ((w.toNat : Int) - n) = effAddr s.xlen w (-BitVec.ofNat 64 n) := by
  apply BitVec.eq_of_toNat_eq
  rw [wrap, effAddr, State.xlen, cut_toNat, BitVec.toNat_ofNat, BitVec.toNat_add, BitVec.toNat_neg, BitVec.toNat_ofNat]
  cases s.cfg.xlen <;> simp only [Xlen.bits] <;> omega

/-! ## Pushes -/

/-- A state that the first j stores of a push have reached: the slots hold the registers, from the first of the list of accesses;
nothing else has changed but the fetch-coherence set (49_zc_code_size.md R553, 10_state.md R42). -/
structure Pushed (s : State) (l : List RegIdx) (base : Word) (j : Nat) (u : State) : Prop where
  stored : ∀ i (h : i < l.length), i < j → ∀ k < s.cfg.xlen.bytes,
    Memory.get? u.mem (byteAddr s (slot s base i) k) = some (BitVec.ofNat 8 (uval s l[i] / 256 ^ k))
  others : ∀ a, (∀ i < j, ∀ k < s.cfg.xlen.bytes, a ≠ byteAddr s (slot s base i) k) →
    Memory.get? u.mem a = Memory.get? s.mem a
  stale : ∀ a, a ∈ u.stale ↔ a ∈ s.stale ∨ ∃ i < j, ∃ k < s.cfg.xlen.bytes, a = byteAddr s (slot s base i) k
  frame : u = { s with mem := u.mem, stale := u.stale }

section
variable {s u : State} {l : List RegIdx} {base : Word} {j : Nat}

theorem Pushed.cfg_eq (h : Pushed s l base j u) : u.cfg = s.cfg := by rw [h.frame]

theorem Pushed.pc_eq (h : Pushed s l base j u) : u.pc = s.pc := by rw [h.frame]

theorem Pushed.getX_eq (h : Pushed s l base j u) (r : RegIdx) : u.getX r = s.getX r :=
  getX_congr (by rw [h.frame]) h.cfg_eq r

theorem pushed_zero (s : State) (l : List RegIdx) (base : Word) : Pushed s l base 0 s where
  stored := nofun
  others _ _ := rfl
  stale := by simp
  frame := rfl

/-- A register is shorter than the address space. -/
theorem xlen_bytes_le (xlen : Xlen) : xlen.bytes ≤ 2 ^ xlen.bits := by cases xlen <;> decide

/-- Where memory and the fetch-coherence set are written again, the states that differ in them alone agree. -/
theorem withMemory_congr (h : u = { s with mem := u.mem, stale := u.stale }) (m : Memory) (a : List Nat) :
    ({ u with mem := m, stale := a } : State) = { s with mem := m, stale := a } := by
  rw [h]

/-- One more store: its slot has no byte of the slots before (49_zc_code_size.md R553). -/
theorem Pushed.poke (h : Pushed s l base j u) (hl : l.length ≤ 13) (hj : j < l.length) :
    Pushed s l base (j + 1) (u.poke (slot s base j) s.cfg.xlen.bytes (u.getX l[j])) := by
  have hstored : Stored u (u.poke (slot s base j) s.cfg.xlen.bytes (u.getX l[j])) (slot s base j) s.cfg.xlen.bytes
      (uval s l[j]) := by
    rw [uval, ← h.getX_eq, ← h.cfg_eq]
    exact poke_stored (xlen_bytes_le _)
  obtain ⟨hbytes, hrest, hstale⟩ := hstored
  simp only [byteAddr_congr h.cfg_eq] at hbytes hrest hstale
  refine ⟨fun i hi hij k hk => ?_, fun a ha => ?_, fun a => ?_, ?_⟩
  · rcases Nat.lt_succ_iff_lt_or_eq.1 hij with hlt | rfl
    · refine (hrest _ fun k' hk' => ?_).trans (h.stored i hi hlt k hk)
      exact byteAddr_slot_ne (hi.trans_le hl) (hj.trans_le hl) hk hk' hlt.ne
    · exact hbytes k hk
  · exact (hrest a fun k hk => ha j (Nat.lt_succ_self j) k hk).trans
      (h.others a fun i hi k hk => ha i (Nat.lt_succ_of_lt hi) k hk)
  · rw [hstale, h.stale, or_assoc, Nat.exists_lt_succ_right]
  · exact (poke_frame _ _ _ _).trans (withMemory_congr h.frame _ _)

/-- The stores of a push, up to the j-th, where all before it reach their slots (49_zc_code_size.md R553). -/
theorem pushAll_reached (hl : l.length ≤ 13) (hj : j ≤ l.length) (h : ∀ i < j, Reached s .store (slot s base i)) :
    ∃ u, Pushed s l base j u ∧ pushAll l (slot s base 0) s = pushAll (l.drop j) (slot s base j) u := by
  induction j with
  | zero => exact ⟨s, pushed_zero s l base, rfl⟩
  | succ j ih =>
    obtain ⟨u, hu, hrun⟩ := ih (Nat.le_of_succ_le hj) fun i hi => h i (Nat.lt_succ_of_lt hi)
    obtain ⟨ha, hm⟩ := h j (Nat.lt_succ_self j)
    refine ⟨_, hu.poke hl hj, hrun.trans ?_⟩
    have hstore : u.store (slot s base j) u.xlen.bytes (u.getX l[j])
        = .ok (u.poke (slot s base j) s.cfg.xlen.bytes (u.getX l[j])) := by
      rw [State.xlen, hu.cfg_eq]
      exact store_ok.2 ⟨by rw [hu.cfg_eq]; exact checkAccess_of_mapped ha hm, rfl⟩
    rw [List.drop_eq_getElem_cons hj, pushAll, hstore]
    exact congrArg (pushAll _ · _) (slotBelow_slot hu.cfg_eq base j)

/-- A push whose j-th store is the first that cannot reach its slot stops there (49_zc_code_size.md R553). -/
theorem pushAll_unreached (hl : l.length ≤ 13) (hj : j < l.length) (h : ∀ i < j, Reached s .store (slot s base i))
    (hstop : ¬Reached s .store (slot s base j)) :
    ∃ u, Pushed s l base j u ∧ pushAll l (slot s base 0) s
      = (u, some (.exc (if AlignedOrEmulated s (slot s base j) s.cfg.xlen.bytes then .storeAccessFault else .storeAddrMisaligned)
          (slot s base j))) := by
  obtain ⟨u, hu, hrun⟩ := pushAll_reached hl hj.le h
  refine ⟨u, hu, hrun.trans ?_⟩
  have hcheck := checkAccess_of_unreachable hstop
  rw [List.drop_eq_getElem_cons hj, pushAll, State.store, State.xlen, hu.cfg_eq, hcheck]
  rfl

end

/-- A sequence whose accesses all succeed goes on to its final section (49_zc_code_size.md R553). -/
theorem finishSequence_completed {p : State × Option Stop} {final : State → State} {u : State} (h : p = (u, none)) :
    finishSequence p final = .next (final u) := by
  rw [h]
  rfl

/-- A sequence that an access has stopped takes the exception on the state reached (49_zc_code_size.md R553). -/
theorem finishSequence_traps {p : State × Option Stop} {final : State → State} {u : State} {c : Exc} {v : Word}
    (h : p = (u, some (.exc c v))) : Traps u (finishSequence p final) c v := by
  rw [h]
  exact takeTrap_traps u c v

/-- A push of a list that exists is its stores, and then x2 lowered and pc moved (49_zc_code_size.md R568). -/
theorem exec_cmPush {rlist : BitVec 4} (h : 4 ≤ rlist.toNat) (spimm : BitVec 2) (s : State) :
    exec (.cmPush rlist spimm) s
      = finishSequence (pushAll (listed rlist).reverse (slot s (s.getX 2#5) 0) s)
          (fun t => (t.setX 2#5 (wrap s ((uval s 2#5 : Int) - adjustment s.cfg.xlen rlist spimm))).advance 2) := by
  rw [← regList_eq h, ← slot_zero, uval, wrap_sub_ofNat, ← stackAdj_eq_adjustment _ _ _ h]
  exact if_neg (Nat.not_lt.2 h)

/-- Settles O56: after the last store x2 is lowered and pc moved. -/
theorem pushCompletes : Obligations.PushCompletes := by
  intro rlist spimm s hlist regs w h
  obtain ⟨u, hu, hrun⟩ := pushAll_reached (listed_length_le rlist) le_rfl h
  rw [List.drop_length, pushAll] at hrun
  refine ⟨_, (exec_cmPush hlist spimm s).trans (finishSequence_completed hrun), fun q => ?_, ?_, fun j hj k hk => ?_,
    fun a ha => ?_, fun a => ?_, ?_⟩
  · rw [getX_advance, getX_setX, hu.getX_eq, hu.cfg_eq, cut_wrap]
    exact if_congr (and_iff_left (by decide)) rfl rfl
  · rw [advance_pc, setX_cfg, setX_pc, hu.cfg_eq, hu.pc_eq]
    exact (wrap_add_ofNat s s.pc 2).symm
  · rw [advance_mem, setX_mem]
    exact hu.stored j hj hj k hk
  · rw [advance_mem, setX_mem]
    exact hu.others a ha
  · rw [advance_stale, setX_stale]
    exact hu.stale a
  · rw [setX_frame, hu.frame]
    rfl

/-! ## Pops -/

/-- A state that the first j loads of a pop have reached: the registers from the first of the list of accesses hold the numbers
loaded; nothing else has changed (49_zc_code_size.md R553). -/
structure Popped (s : State) (l : List RegIdx) (v : Nat → Nat) (j : Nat) (u : State) : Prop where
  loaded : ∀ i (h : i < l.length), i < j → (u.getX l[i]).toNat = v i
  others : ∀ q, q ∉ l.take j → u.getX q = s.getX q
  frame : u = { s with x := u.x }

section
variable {s u : State} {l : List RegIdx} {base : Word} {j : Nat} {v : Nat → Nat}

theorem Popped.cfg_eq (h : Popped s l v j u) : u.cfg = s.cfg := by rw [h.frame]

theorem Popped.pc_eq (h : Popped s l v j u) : u.pc = s.pc := by rw [h.frame]

theorem popped_zero (s : State) (l : List RegIdx) (v : Nat → Nat) : Popped s l v 0 s where
  loaded := nofun
  others _ _ := rfl
  frame := rfl

/-- Where the integer registers are written again, the states that differ in them alone agree. -/
theorem withRegisters_congr (h : u = { s with x := u.x }) (x : Vector Word 32) :
    ({ u with x := x } : State) = { s with x := x } := by
  rw [h]

/-- One more load: its register is none of those before (49_zc_code_size.md R552, R553). -/
theorem Popped.setX (h : Popped s l v j u) (hdistinct : l.Nodup) (hzero : 0#5 ∉ l) (hj : j < l.length)
    (hv : v j < 256 ^ s.cfg.xlen.bytes) : Popped s l v (j + 1) (u.setX l[j] (BitVec.ofNat 64 (v j))) := by
  have hne : l[j] ≠ 0#5 := fun h0 => hzero (h0 ▸ List.getElem_mem hj)
  refine ⟨fun i hi hij => ?_, fun q hq => ?_, ?_⟩
  · rcases Nat.lt_succ_iff_lt_or_eq.1 hij with hlt | rfl
    · rw [getX_setX_ne u _ fun he => hlt.ne ((hdistinct.getElem_inj_iff).1 he)]
      exact h.loaded i hi hlt
    · rw [getX_setX_same u _ hne, h.cfg_eq, cut_toNat, BitVec.toNat_ofNat]
      cases hx : s.cfg.xlen <;> rw [hx] at hv <;> simp only [Xlen.bytes, Xlen.bits] at hv ⊢ <;> omega
  · rw [List.take_succ_eq_append_getElem hj, List.mem_append, List.mem_singleton, not_or] at hq
    obtain ⟨hbefore, hlast⟩ := hq
    rw [getX_setX_ne u _ hlast]
    exact h.others q hbefore
  · exact (setX_frame u _ _).trans (withRegisters_congr h.frame _)

/-- Loading reads memory and the parameters alone. -/
theorem Popped.load_eq (h : Popped s l v j u) (addr : Word) (n : Nat) : u.load addr n = s.load addr n := by
  rw [h.frame]
  rfl

/-- The loads of a pop, up to the j-th, where all before it reach their slots (49_zc_code_size.md R553). -/
theorem popAll_reached (hdistinct : l.Nodup) (hzero : 0#5 ∉ l) (hj : j ≤ l.length)
    (h : ∀ i < j, Reached s .load (slot s base i) ∧ Holds s (slot s base i) s.cfg.xlen.bytes (v i)) :
    ∃ u, Popped s l v j u ∧ popAll l (slot s base 0) s = popAll (l.drop j) (slot s base j) u := by
  induction j with
  | zero => exact ⟨s, popped_zero s l v, rfl⟩
  | succ j ih =>
    obtain ⟨u, hu, hrun⟩ := ih (Nat.le_of_succ_le hj) fun i hi => h i (Nat.lt_succ_of_lt hi)
    obtain ⟨⟨ha, hm⟩, hv⟩ := h j (Nat.lt_succ_self j)
    refine ⟨_, hu.setX hdistinct hzero hj hv.1, hrun.trans ?_⟩
    have hload : u.load (slot s base j) u.xlen.bytes = .ok (BitVec.ofNat 64 (v j)) := by
      rw [hu.load_eq, State.xlen, hu.cfg_eq, load_eq_peek ha hm, peek_of_holds hv]
    rw [List.drop_eq_getElem_cons hj, popAll, hload]
    exact congrArg (popAll _ · _) (slotBelow_slot hu.cfg_eq base j)

/-- A pop whose j-th load is the first that cannot reach its slot stops there (49_zc_code_size.md R553). -/
theorem popAll_unreached (hdistinct : l.Nodup) (hzero : 0#5 ∉ l) (hj : j < l.length)
    (h : ∀ i < j, Reached s .load (slot s base i) ∧ Holds s (slot s base i) s.cfg.xlen.bytes (v i))
    (hstop : ¬Reached s .load (slot s base j)) :
    ∃ u, Popped s l v j u ∧ popAll l (slot s base 0) s
      = (u, some (.exc (if AlignedOrEmulated s (slot s base j) s.cfg.xlen.bytes then .loadAccessFault else .loadAddrMisaligned)
          (slot s base j))) := by
  obtain ⟨u, hu, hrun⟩ := popAll_reached hdistinct hzero hj.le h
  refine ⟨u, hu, hrun.trans ?_⟩
  have hcheck := checkAccess_of_unreachable hstop
  rw [List.drop_eq_getElem_cons hj, popAll, hu.load_eq, State.xlen, hu.cfg_eq, State.load, hcheck]
  rfl

/-- What a register reads after all loads of a pop. -/
theorem Popped.reads (h : Popped s l v l.length u) {t : State} {q : RegIdx} (ht : t.getX q = u.getX q) :
    (∀ j (hj : j < l.length), q = l[j] → (t.getX q).toNat = v j) ∧ (q ∉ l → t.getX q = s.getX q) := by
  rw [ht]
  refine ⟨fun j hj hq => hq ▸ h.loaded j hj hj, fun hq => h.others q ?_⟩
  rwa [List.take_length]

/-- The final section of a pop, from a state that differs from the first in integer registers alone: x2 and pc are written
(49_zc_code_size.md R569 to R571). -/
theorem popFinal_writes (h : u = { s with x := u.x }) (newSp target : Word) {t : State}
    (ht : t = { u.setX 2#5 newSp with pc := target }) :
    t.getX 2#5 = cut s.cfg.xlen newSp ∧ (∀ q, q ≠ 2#5 → t.getX q = u.getX q) ∧ t.pc = target ∧ SameMemory s t
      ∧ t = { s with x := t.x, pc := t.pc } := by
  have hcfg : u.cfg = s.cfg := by rw [h]
  have hget (q : RegIdx) : t.getX q = (u.setX 2#5 newSp).getX q := by rw [ht]; exact getX_congr rfl rfl q
  have hframe : t = { s with x := t.x, pc := t.pc } := by
    rw [ht, setX_frame, h]
  refine ⟨?_, fun q hq => ?_, by rw [ht], fun a => by rw [hframe], hframe⟩
  · rw [hget, getX_setX_same _ _ (by decide), hcfg]
  · rw [hget, getX_setX_ne _ _ hq]

end

/-- The stack pointer after a pop (49_zc_code_size.md R569). -/
theorem raisedSp_eq (s : State) {rlist : BitVec 4} (h : 4 ≤ rlist.toNat) (spimm : BitVec 2) :
    effAddr s.xlen (s.getX 2#5) (stackAdj s.xlen rlist spimm) = wrap s (uval s 2#5 + adjustment s.cfg.xlen rlist spimm) := by
  rw [uval, wrap_add_ofNat, ← stackAdj_eq_adjustment _ _ _ h]
  rfl

section
variable {rlist : BitVec 4} {spimm : BitVec 2} {s : State}

/-- The pops of a list that exists are its loads and a final section each (49_zc_code_size.md R569 to R571). -/
theorem exec_pops (h : 4 ≤ rlist.toNat) {newSp : Word} (hsp : newSp = wrap s (uval s 2#5 + adjustment s.cfg.xlen rlist spimm)) :
    let loads := popAll (listed rlist).reverse (slot s newSp 0) s
    exec (.cmPop rlist spimm) s = finishSequence loads (fun t => (t.setX 2#5 newSp).advance 2)
    ∧ exec (.cmPopret rlist spimm) s
        = finishSequence loads (fun t => { t.setX 2#5 newSp with pc := t.getX ra &&& ~~~1#64 })
    ∧ exec (.cmPopretz rlist spimm) s
        = finishSequence loads (fun t => { (t.setX a0 0#64).setX 2#5 newSp with pc := t.getX ra &&& ~~~1#64 }) := by
  intro loads
  have hlegal : ¬rlist.toNat < 4 := Nat.not_lt.2 h
  have hloads : loads = popAll (regList rlist) (topSlot s rlist spimm) s := by
    rw [regList_eq h, topSlot_eq s spimm h, ← hsp]
  rw [hloads, hsp, ← raisedSp_eq s h]
  exact ⟨if_neg hlegal, if_neg hlegal, if_neg hlegal⟩

end

/-- Settles O57: after the last load each pop has its final section, whose target is the x1 that was loaded last. -/
theorem popsComplete : Obligations.PopsComplete := by
  intro rlist spimm s v hlist regs w newSp addr popped h
  obtain ⟨u, hu, hrun⟩ := popAll_reached (listed_nodup rlist) (zero_notMem_listed rlist) le_rfl fun i hi =>
    have ⟨ha, hm, hv⟩ := h i hi
    ⟨⟨ha, hm⟩, hv⟩
  rw [List.drop_length, popAll] at hrun
  obtain ⟨hpop, hpopret, hpopretz⟩ := exec_pops (spimm := spimm) hlist (newSp := newSp) rfl
  obtain ⟨hlast, hra⟩ := regList_last hlist
  have htarget : u.getX ra &&& ~~~1#64 = BitVec.ofNat 64 (v (regs.length - 1) / 2 * 2) := by
    rw [registerTarget_eq, uval, ← hra, hu.loaded _ hlast hlast]
  have hnewSp : cut s.cfg.xlen newSp = newSp := cut_wrap s _
  have hzeroed : u.setX a0 0#64 = { s with x := (u.setX a0 0#64).x } :=
    (setX_frame u _ _).trans (withRegisters_congr hu.frame _)
  refine ⟨⟨_, hpop.trans (finishSequence_completed hrun), ?_⟩, ⟨_, hpopret.trans (finishSequence_completed hrun), ?_⟩,
    ⟨_, hpopretz.trans (finishSequence_completed hrun), ?_⟩⟩
  · obtain ⟨hsp, hothers, -, hmem, hframe⟩ := popFinal_writes hu.frame newSp _ (t := (u.setX 2#5 newSp).advance 2) rfl
    refine ⟨hsp.trans hnewSp, fun q hq => hu.reads (hothers q hq), ?_, hmem, hframe⟩
    rw [advance_pc, setX_cfg, setX_pc, hu.cfg_eq, hu.pc_eq]
    exact (wrap_add_ofNat s s.pc 2).symm
  · obtain ⟨hsp, hothers, hpc, hmem, hframe⟩ := popFinal_writes hu.frame newSp (u.getX ra &&& ~~~1#64) rfl
    exact ⟨hsp.trans hnewSp, fun q hq => hu.reads (hothers q hq), hpc.trans htarget, hmem, hframe⟩
  · obtain ⟨hsp, hothers, hpc, hmem, hframe⟩ := popFinal_writes hzeroed newSp (u.getX ra &&& ~~~1#64) rfl
    refine ⟨hsp.trans hnewSp, ?_, fun q hq hq0 => hu.reads ((hothers q hq).trans (getX_setX_ne u _ hq0)), hpc.trans htarget,
      hmem, hframe⟩
    exact (hothers a0 (by decide)).trans ((getX_setX_same u _ (by decide)).trans (cut_zero _))

/-! ## Pushes and pops that trap -/

/-- Settles O58: an rlist without a list is illegal; else the accesses before the first that fails are those of a completed
sequence, and that one raises the exception of its check. -/
theorem pushAndPopsTrap : Obligations.PushAndPopsTrap := by
  intro rlist spimm s regs w low addr reached
  refine ⟨fun hreserved row hrow => ?_, fun hlist j hj => ⟨fun hbefore hstop => ?_, fun v hbefore hstop row hrow => ?_⟩⟩
  · have hexec : exec (row rlist spimm) s = s.stop (illegal (row rlist spimm)) := by
      fin_cases hrow <;> exact if_pos hreserved
    rw [hexec]
    exact takeTrap_traps s _ _
  · obtain ⟨u, hu, hrun⟩ := pushAll_unreached (listed_length_le rlist) hj hbefore hstop
    refine ⟨u, fun i hi => hu.stored i _ hi, hu.others, hu.stale, hu.frame, ?_⟩
    rw [exec_cmPush hlist]
    exact finishSequence_traps hrun
  · obtain ⟨u, hu, hrun⟩ := popAll_unreached (listed_nodup rlist) (zero_notMem_listed rlist) hj hbefore hstop
    refine ⟨u, fun i hi => hu.loaded i _ hi, hu.others, hu.frame, ?_⟩
    obtain ⟨hpop, hpopret, hpopretz⟩ := exec_pops (spimm := spimm) hlist (s := s) rfl
    fin_cases hrow
    · exact hpop ▸ finishSequence_traps hrun
    · exact hpopret ▸ finishSequence_traps hrun
    · exact hpopretz ▸ finishSequence_traps hrun

/-! ## Table jumps -/

section
variable {s : State} {i : Instr} {index : BitVec 8} {link : State → State}

/-- The mode of jvt is its six low bits (10_state.md R38). -/
theorem jvtMode_eq_zero (s : State) : s.jvt.extractLsb' 0 6 = 0#6 ↔ s.jvt.toNat % 64 = 0 := by
  rw [← BitVec.toNat_inj, BitVec.extractLsb'_toNat]
  rfl

/-- A table jump with an undefined mode is illegal (49_zc_code_size.md R555). -/
theorem tableJump_undefined (hmode : s.jvt.toNat % 64 ≠ 0) : Traps s (s.tableJump i index link) .illegalInstruction i.bits := by
  rw [State.tableJump, if_pos ((jvtMode_eq_zero s).not.2 hmode)]
  exact takeTrap_traps s _ _

/-- The read of the table entry (49_zc_code_size.md R555). -/
theorem fetchRead_tableEntry (s : State) (index : BitVec 8) :
    s.fetchRead (effAddr s.xlen (s.jvt &&& ~~~0x3f#64) (BitVec.ofNat 64 (index.toNat * s.xlen.bytes))) s.xlen.bytes
      = s.fetchRead (wrap s (s.jvt.toNat / 64 * 64 + index.toNat * s.cfg.xlen.bytes)) s.cfg.xlen.bytes := by
  rw [tableEntry_eq, State.xlen]

/-- A table jump with a defined mode goes where its entry says (49_zc_code_size.md R555). -/
theorem tableJump_of_entry {target : Word} (hmode : s.jvt.toNat % 64 = 0)
    (hread : s.fetchRead (wrap s (s.jvt.toNat / 64 * 64 + index.toNat * s.cfg.xlen.bytes)) s.cfg.xlen.bytes = .ok target) :
    s.tableJump i index link = .next { link s with pc := target &&& ~~~1#64 } := by
  rw [State.tableJump, if_neg (not_not.2 ((jvtMode_eq_zero s).2 hmode)), fetchRead_tableEntry, hread]

/-- A table jump with a defined mode stops as the read of its entry does (49_zc_code_size.md R555). -/
theorem tableJump_of_entry_error {e : Stop} (hmode : s.jvt.toNat % 64 = 0)
    (hread : s.fetchRead (wrap s (s.jvt.toNat / 64 * 64 + index.toNat * s.cfg.xlen.bytes)) s.cfg.xlen.bytes = .error e) :
    s.tableJump i index link = s.stop e := by
  rw [State.tableJump, if_neg (not_not.2 ((jvtMode_eq_zero s).2 hmode)), fetchRead_tableEntry, hread]

/-- Clearing bit 0 of the word of a number rounds the number down to an even one. -/
theorem ofNat_clear_bit_zero (v : Nat) : BitVec.ofNat 64 v &&& ~~~1#64 = BitVec.ofNat 64 (v / 2 * 2) := by
  apply BitVec.eq_of_toNat_eq
  rw [clear_bit_zero_toNat, BitVec.toNat_ofNat, BitVec.toNat_ofNat]
  omega

end

/-- Settles O59: the table jump is decided by the mode of jvt and then by the read of its entry. -/
theorem tableJumpsComplete : Obligations.TableJumpsComplete := by
  intro index s v w entry
  show (_ → _ → _ → _ → MovesPc s (execCmJt index s) _ ∧ JumpsLinking s (execCmJalt index s) 2 1#5 _)
    ∧ (_ → Traps s (execCmJt index s) _ _ ∧ Traps s (execCmJalt index s) _ _)
    ∧ (_ → _ → Traps s (execCmJt index s) _ _ ∧ Traps s (execCmJalt index s) _ _)
  unfold execCmJt execCmJalt
  refine ⟨fun hmode hm hfresh hv => ?_, fun hmode => ⟨tableJump_undefined hmode, tableJump_undefined hmode⟩,
    fun hmode hm => ?_⟩
  · have hread := fetchRead_of_holds hm hfresh hv
    rw [tableJump_of_entry hmode hread, tableJump_of_entry hmode hread, ofNat_clear_bit_zero]
    exact ⟨rfl, jumpsLinking_setX s 2 1#5 _⟩
  · have hread := fetchRead_of_not_mapped hm
    rw [tableJump_of_entry_error hmode hread, tableJump_of_entry_error hmode hread]
    exact ⟨takeTrap_traps s _ _, takeTrap_traps s _ _⟩

end Sys2Proof.Machine
end
